-- ==== Sys2Proof/Word.lean ====
section
/-! DEFINITION. Word.lean: the widths of the block's values (spec/00_scope.md R4, R7). Every value is an unsigned
bit vector of the width the spec states; bit 0 is the least significant bit. -/

namespace Sys2Proof

/-- A byte on the wire, and a command byte (R4 `CMD_W`). -/
abbrev Byte := BitVec 8

/-- A 16-bit quantity that carries a wiper value, a raw register value or a read result (R4 `VALUE_W`). -/
abbrev Value := BitVec 16

/-- The nine flags of the control register (R4 `TCON_W`, R31). -/
abbrev Tcon := BitVec 9

/-- An address of the two-wire bus (R4 `BUSADDR_W`, R50). -/
abbrev BusAddr := BitVec 7

/-- A register address of the remote device (R4 `ADDR_W`, R51). -/
abbrev RegAddr := BitVec 4

end Sys2Proof
end

