-- ==== Sys2Proof/Syntax.lean ====
section
/-! DEFINITION. Syntax.lean: the instructions (one constructor per row of spec/opcode_table.json), the request record
of the request port, and a word on one of the block's three input ports. -/

namespace Sys2Proof

/-- The four operations of the command byte, in the source's order (R71). -/
inductive CmdOp where
  | write
  | increment
  | decrement
  | read
  deriving DecidableEq, Repr

/-- The instructions. The first four are the command codes of ENC, the next six the requests of SEQ, the last eleven
the functions of TCU. ENC's operands may be wider than their fields (R100 "wider inputs allowed"), so they are
numbers; every other operand has exactly the width its encoding gives it. -/
inductive Instr where
  /-- CMD.W (R101): the Write command byte of register address `a` and data-MSB `m`. -/
  | cmdW (a m : Nat)
  /-- CMD.INC (R102): the Increment command byte. -/
  | cmdInc (a m : Nat)
  /-- CMD.DEC (R103): the Decrement command byte. -/
  | cmdDec (a m : Nat)
  /-- CMD.RD (R104): the Read command byte. -/
  | cmdRd (a m : Nat)
  /-- PROBE (R164): bind the block to a bus address. -/
  | probe (baddr : BusAddr)
  /-- WRITE (R165): write a device register. -/
  | write (reg : RegAddr) (v : Value)
  /-- READ (R166): read a device register. -/
  | read (reg : RegAddr)
  /-- CONFIGURE (R167): write the control register and verify it. -/
  | configure (t : Tcon)
  /-- SET_WIPER0 (R168): write wiper 0. -/
  | setWiper0 (v : Value)
  /-- SET_WIPER1 (R169): write wiper 1. -/
  | setWiper1 (v : Value)
  /-- TCU.EMPTY (R132). -/
  | tcuEmpty
  /-- TCU.ALL_R0 (R133). -/
  | tcuAllR0
  /-- TCU.ALL_R1 (R134). -/
  | tcuAllR1
  /-- TCU.SET (R135). -/
  | tcuSet (t m : Tcon)
  /-- TCU.CLEAR (R136). -/
  | tcuClear (t m : Tcon)
  /-- TCU.TEST (R137). -/
  | tcuTest (t m : Tcon)
  /-- TCU.UNION (R138). -/
  | tcuUnion (a b : Tcon)
  /-- TCU.INTERSECT (R139). -/
  | tcuIntersect (a b : Tcon)
  /-- TCU.FROM_RAW (R140). -/
  | tcuFromRaw (r : Value)
  /-- TCU.TO_RAW (R141). -/
  | tcuToRaw (t : Tcon)
  /-- TCU.EQ (R142). -/
  | tcuEq (a b : Tcon)
  deriving DecidableEq, Repr

/-- The request record `{opc, reg, rsv, baddr, data}` of the request port (R80). -/
structure Request where
  opc   : BitVec 3
  reg   : RegAddr
  rsv   : BitVec 2
  baddr : BusAddr
  data  : Value
  deriving DecidableEq, Repr

/-- A function select with its operands, at TCU's port (R87). -/
structure TcuCall where
  fn : BitVec 4
  a  : Value
  b  : Tcon
  deriving DecidableEq, Repr

/-- One word presented to the block, on the port whose format it has: a command byte to ENC (`CMD8`, R70, R92; that
ENC's own port takes this packed form is a DESIGN CHOICE, log entry 22), a request word to SEQ (`REQ32`, R80), or a
function select with its two operands to TCU (`TFN4`, R87). The three formats are three ports; the port is part of the
word, so no two of them are ever confused. -/
inductive PortWord where
  | cmd (b : Byte)
  | req (w : BitVec 32)
  | tcu (fn : BitVec 4) (a : Value) (b : Tcon)
  deriving DecidableEq, Repr

end Sys2Proof
end

