-- ==== Sys2Proof/WellFormed.lean ====
section
/-! DEFINITION. WellFormed.lean: which instructions have an encoding. The operands of a request and of a TCU function
are typed at the width of their fields, so only ENC's operands can fail to fit (R100: "wider inputs allowed"). -/

namespace Sys2Proof

/-- A register-address operand fits the 4-bit `addr` field (R70). -/
def addrFits (a : Nat) : Bool := decide (a < 16)

/-- A data-MSB operand fits the 2-bit `msb` field (R70). -/
def msbFits (m : Nat) : Bool := decide (m < 4)

/-- The instruction's operands fit the fields of its encoding. An instruction that is not well formed still runs
(ENC masks its operands, R100); it only has no encoding that gives it back. -/
def wellFormed : Instr → Bool
  | .cmdW a m => addrFits a && msbFits m
  | .cmdInc a m => addrFits a && msbFits m
  | .cmdDec a m => addrFits a && msbFits m
  | .cmdRd a m => addrFits a && msbFits m
  | .probe _ => true
  | .write _ _ => true
  | .read _ => true
  | .configure _ => true
  | .setWiper0 _ => true
  | .setWiper1 _ => true
  | .tcuEmpty => true
  | .tcuAllR0 => true
  | .tcuAllR1 => true
  | .tcuSet _ _ => true
  | .tcuClear _ _ => true
  | .tcuTest _ _ => true
  | .tcuUnion _ _ => true
  | .tcuIntersect _ _ => true
  | .tcuFromRaw _ => true
  | .tcuToRaw _ => true
  | .tcuEq _ _ => true

end Sys2Proof
end

