-- ==== Sys2Proof/Decode.lean ====
section
/-! DEFINITION. Decode.lean: from a word on a port to an instruction or a named rejection, then the encoder, both
written from spec/30_encoding.md; and the host's view of a table word. -/

namespace Sys2Proof

/-- Why a word spells no instruction. -/
inductive DecodeError where
  /-- `opc` 0b110 or 0b111 (R81, R83). -/
  | reservedOpc
  /-- A request field that R82 requires to be zero is not. -/
  | mustBeZero
  /-- TCU `fn` 0xB to 0xF (R87, R144). -/
  | reservedFn
  /-- A TCU operand bit that R87 requires to be zero is not (R144). -/
  | operandNotZero
  deriving DecidableEq, Repr

/-- The numeric value of an operation code (`OP_CODE`, R71). -/
def opCode : CmdOp → BitVec 2
  | .write => 0b00#2
  | .increment => 0b01#2
  | .decrement => 0b10#2
  | .read => 0b11#2

/-- The operation of a 2-bit code; every code names one (R71, R90). -/
def opOfCode (c : BitVec 2) : CmdOp :=
  if c = 0b00#2 then .write
  else if c = 0b01#2 then .increment
  else if c = 0b10#2 then .decrement
  else .read

/-- `addr`, bits 7..4 of a command byte (R70). -/
def cmdAddr (b : Byte) : BitVec 4 := b.extractLsb' 4 4

/-- `op`, bits 3..2 of a command byte (R70). -/
def cmdOpBits (b : Byte) : BitVec 2 := b.extractLsb' 2 2

/-- `msb`, bits 1..0 of a command byte (R70). -/
def cmdMsb (b : Byte) : BitVec 2 := b.extractLsb' 0 2

/-- The command instruction of an operation. -/
def commandOf (op : CmdOp) (a m : Nat) : Instr :=
  match op with
  | .write => .cmdW a m
  | .increment => .cmdInc a m
  | .decrement => .cmdDec a m
  | .read => .cmdRd a m

/-- Decoding a command byte, total on all 256 of them (R92). -/
def decodeCmd (b : Byte) : Instr :=
  commandOf (opOfCode (cmdOpBits b)) (cmdAddr b).toNat (cmdMsb b).toNat

/-- The fields of a request word (R80). -/
def unpackRequest (w : BitVec 32) : Request where
  opc   := w.extractLsb' 29 3
  reg   := w.extractLsb' 25 4
  rsv   := w.extractLsb' 23 2
  baddr := w.extractLsb' 16 7
  data  := w.extractLsb' 0 16

/-- The request word of a record: `opc`, `reg`, `rsv`, `baddr`, `data` from the most significant bit down (R80). -/
def packRequest (r : Request) : BitVec 32 :=
  r.opc ++ r.reg ++ r.rsv ++ r.baddr ++ r.data

/-- `opc` is one of the two reserved values (R81). -/
def reservedOpc (r : Request) : Bool := r.opc == 0b110#3 || r.opc == 0b111#3

/-- The low nine bits of a value, the Tcon value a CONFIGURE request carries (R82). -/
def dataTcon (v : Value) : Tcon := v.extractLsb' 0 9

/-- The bits of a value above the nine of a Tcon value. -/
def dataAboveTcon (v : Value) : BitVec 7 := v.extractLsb' 9 7

/-- Every field that R82 requires to be zero for the request's `opc` is zero. (A reserved `opc` has no row in R82.) -/
def unusedFieldsZero (r : Request) : Bool :=
  match r.opc.toNat with
  | 0 => r.reg == 0#4 && r.rsv == 0#2 && r.data == 0#16
  | 1 => r.rsv == 0#2 && r.baddr == 0#7
  | 2 => r.rsv == 0#2 && r.baddr == 0#7 && r.data == 0#16
  | 3 => r.reg == 0#4 && r.rsv == 0#2 && r.baddr == 0#7 && dataAboveTcon r.data == 0#7
  | 4 => r.reg == 0#4 && r.rsv == 0#2 && r.baddr == 0#7
  | 5 => r.reg == 0#4 && r.rsv == 0#2 && r.baddr == 0#7
  | _ => true

/-- The operation a request with clear unused fields names (R81, R82); none for a reserved `opc`. -/
def operationOf (r : Request) : Option Instr :=
  match r.opc.toNat with
  | 0 => some (.probe r.baddr)
  | 1 => some (.write r.reg r.data)
  | 2 => some (.read r.reg)
  | 3 => some (.configure (dataTcon r.data))
  | 4 => some (.setWiper0 r.data)
  | 5 => some (.setWiper1 r.data)
  | _ => none

/-- Decoding a request (R81 to R83). A WRITE or READ of an unmapped register decodes: its refusal is the meaning's
(R84, R161). -/
def decodeRequest (r : Request) : Except DecodeError Instr :=
  match operationOf r with
  | none => .error .reservedOpc
  | some i => if unusedFieldsZero r then .ok i else .error .mustBeZero

/-- Accept an instruction when the operand bits R87 requires to be zero are. -/
def whenZero (zero : Bool) (i : Instr) : Except DecodeError Instr :=
  if zero then .ok i else .error .operandNotZero

/-- Decoding a TCU function select with its operands `A` and `B` (R87, R144). -/
def decodeTcu (fn : BitVec 4) (a : Value) (b : Tcon) : Except DecodeError Instr :=
  let t := dataTcon a
  let aNarrow := dataAboveTcon a == 0#7
  match fn.toNat with
  | 0x0 => whenZero (a == 0#16 && b == 0#9) .tcuEmpty
  | 0x1 => whenZero (a == 0#16 && b == 0#9) .tcuAllR0
  | 0x2 => whenZero (a == 0#16 && b == 0#9) .tcuAllR1
  | 0x3 => whenZero aNarrow (.tcuSet t b)
  | 0x4 => whenZero aNarrow (.tcuClear t b)
  | 0x5 => whenZero aNarrow (.tcuTest t b)
  | 0x6 => whenZero aNarrow (.tcuUnion t b)
  | 0x7 => whenZero aNarrow (.tcuIntersect t b)
  | 0x8 => whenZero (b == 0#9) (.tcuFromRaw a)
  | 0x9 => whenZero (aNarrow && b == 0#9) (.tcuToRaw t)
  | 0xA => whenZero aNarrow (.tcuEq t b)
  | _ => .error .reservedFn

/-- Decoding a word on a port: total, with a named rejection. -/
def decode : PortWord → Except DecodeError Instr
  | .cmd b => .ok (decodeCmd b)
  | .req w => decodeRequest (unpackRequest w)
  | .tcu fn a b => decodeTcu fn a b

/-- The request records of the six operations: the fields R82 uses, the rest zero. -/
def probeRequest (baddr : BusAddr) : Request :=
  { opc := 0b000#3, reg := 0#4, rsv := 0#2, baddr := baddr, data := 0#16 }

/-- See `probeRequest`. -/
def writeRequest (reg : RegAddr) (v : Value) : Request :=
  { opc := 0b001#3, reg := reg, rsv := 0#2, baddr := 0#7, data := v }

/-- See `probeRequest`. -/
def readRequest (reg : RegAddr) : Request :=
  { opc := 0b010#3, reg := reg, rsv := 0#2, baddr := 0#7, data := 0#16 }

/-- See `probeRequest`; the Tcon value stands in `data[8:0]`. -/
def configureRequest (t : Tcon) : Request :=
  { opc := 0b011#3, reg := 0#4, rsv := 0#2, baddr := 0#7, data := 0#7 ++ t }

/-- See `probeRequest`. -/
def setWiper0Request (v : Value) : Request :=
  { opc := 0b100#3, reg := 0#4, rsv := 0#2, baddr := 0#7, data := v }

/-- See `probeRequest`. -/
def setWiper1Request (v : Value) : Request :=
  { opc := 0b101#3, reg := 0#4, rsv := 0#2, baddr := 0#7, data := v }

/-- The command byte of R70, `[addr:4][op:2][msb:2]`, each operand cut to its field. -/
def encodeCmd (op : CmdOp) (a m : Nat) : Byte :=
  BitVec.ofNat 4 a ++ opCode op ++ BitVec.ofNat 2 m

/-- The TCU word of a function whose operand A is nine bits wide. -/
def encodeTcu (fn : BitVec 4) (t b : Tcon) : PortWord := .tcu fn (0#7 ++ t) b

/-- The word of an instruction, on its own port. -/
def encode : Instr → PortWord
  | .cmdW a m => .cmd (encodeCmd .write a m)
  | .cmdInc a m => .cmd (encodeCmd .increment a m)
  | .cmdDec a m => .cmd (encodeCmd .decrement a m)
  | .cmdRd a m => .cmd (encodeCmd .read a m)
  | .probe baddr => .req (packRequest (probeRequest baddr))
  | .write reg v => .req (packRequest (writeRequest reg v))
  | .read reg => .req (packRequest (readRequest reg))
  | .configure t => .req (packRequest (configureRequest t))
  | .setWiper0 v => .req (packRequest (setWiper0Request v))
  | .setWiper1 v => .req (packRequest (setWiper1Request v))
  | .tcuEmpty => encodeTcu 0x0#4 0#9 0#9
  | .tcuAllR0 => encodeTcu 0x1#4 0#9 0#9
  | .tcuAllR1 => encodeTcu 0x2#4 0#9 0#9
  | .tcuSet t m => encodeTcu 0x3#4 t m
  | .tcuClear t m => encodeTcu 0x4#4 t m
  | .tcuTest t m => encodeTcu 0x5#4 t m
  | .tcuUnion a b => encodeTcu 0x6#4 a b
  | .tcuIntersect a b => encodeTcu 0x7#4 a b
  | .tcuFromRaw r => .tcu 0x8#4 r 0#9
  | .tcuToRaw t => encodeTcu 0x9#4 t 0#9
  | .tcuEq a b => encodeTcu 0xA#4 a b

/-- The `match` words of the four CMD8 rows (spec/opcode_table.json). -/
def isCmdRowWord (w : Nat) : Bool := w == 0x00 || w == 0x04 || w == 0x08 || w == 0x0C

/-- The `match` words of the eleven TFN4 rows (spec/opcode_table.json). -/
def isTcuRowWord (w : Nat) : Bool := decide (w ≤ 0xA)

/-- The port on which a word of the opcode table is presented. The table does not name the port; its width does: 32
bits are a request, 4 bits a TCU function (operands zero), 8 bits a command byte. DESIGN CHOICE (log entry 10): a
TFN4 row's 4 bits, rounded up to a whole byte, cannot be told from a CMD8 row's 8 by width, so an 8-bit word is looked
up among the rows' own match words first, the CMD8 rows before the TFN4 rows, and is otherwise a command byte. Only
this function is concerned: `decode` is told the port. -/
def portOfTableWord (nbits w : Nat) : Option PortWord :=
  if nbits = 32 then some (.req (BitVec.ofNat 32 w))
  else if nbits = 8 then
    if isTcuRowWord w && !isCmdRowWord w then some (.tcu (BitVec.ofNat 4 w) 0#16 0#9)
    else some (.cmd (BitVec.ofNat 8 w))
  else if nbits ≤ 4 then some (.tcu (BitVec.ofNat 4 w) 0#16 0#9)
  else none

/-- The instruction the decoder reads from a word of the opcode table. -/
def decodeTableWord (nbits w : Nat) : Option Instr :=
  match portOfTableWord nbits w with
  | none => none
  | some p =>
    match decode p with
    | .ok i => some i
    | .error _ => none

end Sys2Proof
end

