-- ==== Sys2Proof/Config.lean ====
section
/-! DEFINITION. Config.lean: the parameters of spec/00_scope.md R5 that are fixed for one implementation. -/

namespace Sys2Proof

/-- The transport's error payloads, numbered (R5, D17, I6: an open type). It has no body: which payloads there are, how
many, and which numbers name the same one, is not fixed here (log entry 3). -/
opaque Config.errorPayload : Nat → Nat

/-- The type of the transport's error payload, the parameter `TErr` of R5: the payloads that `Config.errorPayload`
gives. Nothing about it can be proved beyond that it is not empty and that its payloads can be numbered. The block
carries a payload verbatim and no rule inspects it (R201). -/
structure TErr where
  payload : Nat
  numbered : ∃ n, Config.errorPayload n = payload
  deriving DecidableEq, Repr

/-- The payload numbered `n`; every payload is one of these. -/
def TErr.ofNumber (n : Nat) : TErr := ⟨Config.errorPayload n, n, rfl⟩

/-- `DEFAULT_BUS_ADDR` of R5 and R50: the source gives no value and no rule of the block reads it, so it has no body
here (log entry 14). -/
opaque Config.defaultBusAddr : BusAddr

end Sys2Proof
end

