-- ==== Sys2Proof/Machine/State.lean ====
section
/-! DEFINITION. Machine/State.lean: the architectural state of the block (spec/10_state.md R20 to R29), its output
ports, the inputs the outside world gives it, and its state after reset (R230). -/

namespace Sys2Proof.Machine

/-- The sequencer's control state (R24). -/
inductive Phase where
  /-- No request in the block. -/
  | idle
  /-- The probe `BusRead` is outstanding. -/
  | probeWait
  /-- The `BusWrite` of WRITE, SET_WIPER0 or SET_WIPER1 is outstanding. -/
  | wrWait
  /-- The `BusWriteRead` of READ is outstanding. -/
  | rdWait
  /-- The `BusWrite` of CONFIGURE is outstanding. -/
  | cfgWrWait
  /-- The `BusWriteRead` of CONFIGURE is outstanding. -/
  | cfgRdWait
  /-- A response is presented and not yet taken. -/
  | resp
  deriving DecidableEq, Repr

/-- The status of a response (R86). The reserved code 0b011 is never produced, so no constructor has it; the codes
stand in Machine/Flags.lean (`statusCode`). -/
inductive Status where
  | ok
  | transportError
  | configMismatch
  | refNotBound
  | refAlreadyBound
  | refBadRegister
  | refBadForm
  deriving DecidableEq, Repr

/-- The response record `{status, data, err}` (R85): the registers `RSP_STATUS`, `RSP_DATA` and `RSP_ERR`, which
`respond` writes together (R29, R163). -/
structure Response where
  status : Status
  data   : Value
  err    : Option TErr
  deriving DecidableEq, Repr

/-- A transaction presented on the bus port: one of three primitives, each to a 7-bit bus address, with the bytes
sent and the number of bytes asked for (R52). -/
inductive Txn where
  | busWrite (a : BusAddr) (out : List Byte)
  | busRead (a : BusAddr) (n : Nat)
  | busWriteRead (a : BusAddr) (out : List Byte) (n : Nat)
  deriving DecidableEq, Repr

/-- The transport's outcome of one transaction (R52, R53): it fails with an error, or it succeeds. The two bytes of a
success are those a two-byte reply returns, in the order received; a one-byte reply is the first, and a write returns
none (the bytes are then read by nothing). A success thus always carries exactly the bytes asked for. -/
inductive Draw where
  | ok (b0 b1 : Byte)
  | err (e : TErr)
  deriving DecidableEq, Repr

/-- What a read transaction's diagnostic event reports (R215): the reassembled reply, or the error. -/
inductive ReadReport where
  | reply (v : Value)
  | error (e : TErr)
  deriving DecidableEq, Repr

/-- The events of the write-only diagnostic port (R215). In the first two the last field is `none` for ok. -/
inductive DiagEvent where
  | probeResult (addr : BusAddr) (failure : Option TErr)
  | writeResult (reg : RegAddr) (value : Value) (failure : Option TErr)
  | readResult (reg : RegAddr) (report : ReadReport)
  | mismatch (requested readBack : Tcon)
  deriving DecidableEq, Repr

/-- A result of TCU: `Y` (16 bits; bits 15..9 zero for a nine-bit result) or the flag `F` (R87). -/
inductive TcuResult where
  | y (v : Value)
  | f (b : Bool)
  deriving DecidableEq, Repr

/-- The registers that can be without a value (R21, R23), as faults name them. -/
inductive RegName where
  | busaddr
  | req
  | cmd
  | dlo
  | treq
  deriving DecidableEq, Repr

/-- The block, its ports and its inputs. `none` in a register is the spec's own "no value" (R21, R230, log entry 1).

The registers are those of R20; `bus`, `issued`, `events`, `encOut` and `tcuOut` are what the block drives on its
output ports; `encIn`, `tcuIn`, `presented`, `answers`, `takes`, `resetLine` and `diagPresent` are inputs, which belong
to the outside world and of which a step only consumes (log entry 4). ENC and TCU are combinational (R2): they hold
nothing, and `encOut` and `tcuOut` are what their outputs carried during the step just taken (log entry 6). -/
structure State where
  /-- `BOUND` (R22). -/
  bound       : Bool
  /-- `BUSADDR` (R23). -/
  busaddr     : Option BusAddr
  /-- `PHASE` (R24). -/
  phase       : Phase
  /-- `REQ` (R25). -/
  req         : Option Request
  /-- `CMD` (R26). -/
  cmd         : Option Byte
  /-- `DLO` (R26). -/
  dlo         : Option Byte
  /-- `TREQ` (R27). -/
  treq        : Option Tcon
  /-- `REPLY` (R28). -/
  reply       : Option Value
  /-- `RSP_STATUS`, `RSP_DATA`, `RSP_ERR` (R29). -/
  rsp         : Option Response
  /-- Bus port: the outstanding transaction (R52, R162). -/
  bus         : Option Txn
  /-- Bus port: every transaction issued, oldest first; read by no rule (log entry 5). -/
  issued      : List Txn
  /-- Diagnostic port: every event emitted, oldest first; read by no rule (R215). -/
  events      : List DiagEvent
  /-- ENC's output during the last step; `none` when no command was at its port (R100, log entry 6). -/
  encOut      : Option Byte
  /-- TCU's output during the last step; `none` when no function was selected (R87, log entry 6). -/
  tcuOut      : Option TcuResult
  /-- Input: the command bytes at ENC's port, one for each of the next steps (R70, R92, log entry 6). That a
  word at this port is a packed command byte is a DESIGN CHOICE (log entry 22). -/
  encIn       : List Byte
  /-- Input: the function selects at TCU's port, one for each of the next steps (R87, log entry 6). -/
  tcuIn       : List TcuCall
  /-- Input: the request words the caller presents, first one first; the head is the one held valid (R80). -/
  presented   : List (BitVec 32)
  /-- Input: the outcomes of the transactions to come; empty while the transport does not complete (R53, R213). -/
  answers     : List Draw
  /-- Input: how many responses the caller is ready to take (R163). -/
  takes       : Nat
  /-- Input: the reset line (R231). -/
  resetLine   : Bool
  /-- Input: whether a diagnostic sink is attached (`DIAG_PRESENT`, R5, R215). -/
  diagPresent : Bool
  deriving DecidableEq, Repr

/-- Why the machine stops with a fault. Every one is safe (the model stops), and none can happen in a state that
satisfies the invariant of Safety.lean. -/
inductive Fault where
  /-- A register is read outside the interval in which it has a value (R21; spec/93_implementation_defined.md I19:
  "model's own fault: no value is picked"). Raised by the register reads of Machine/Ops.lean. Safe. -/
  | noValue (r : RegName)
  /-- A transaction is outstanding but `REQ` spells no operation, so no rule continues it. Raised by `resume` of
  Machine/Ops.lean. Safe. -/
  | noOperation
  deriving DecidableEq, Repr

/-- Why the machine refuses. -/
inductive Refusal where
  /-- An instruction of the opcode table that has no meaning in the model yet. No arm raises it now. Safe. -/
  | notModelled (mnemonic : String)
  /-- A word on TCU's port that selects no function: `fn` 0xB to 0xF, or an operand bit that must be zero (R144: "TCU
  gives no result (a model refuses it)"). Raised by `runTcuCall` of Machine/Ops.lean. Safe. -/
  | tcuNoFunction
  deriving DecidableEq, Repr

/-- The three outcomes of a step of this machine. -/
abbrev Result := Host.Outcome State Fault Refusal

/-- The block right after reset (R230): unbound, idle, every other register without a value. The output ports have
driven nothing and the outside world has given no input yet; `diagPresent` is a DESIGN CHOICE (log entry 8). -/
def State.reset : State where
  bound       := false
  busaddr     := none
  phase       := .idle
  req         := none
  cmd         := none
  dlo         := none
  treq        := none
  reply       := none
  rsp         := none
  bus         := none
  issued      := []
  events      := []
  encOut      := none
  tcuOut      := none
  encIn       := []
  tcuIn       := []
  presented   := []
  answers     := []
  takes       := 0
  resetLine   := false
  diagPresent := true

end Sys2Proof.Machine
end

