-- ==== Sys2Proof/Machine/Flags.lean ====
section
/-! DEFINITION. Machine/Flags.lean: the Tcon flags and the functions of TCU (spec/10_state.md R31 to R35,
spec/41_tcon.md), and the status codes a caller sees (spec/30_encoding.md R86). -/

namespace Sys2Proof.Machine

/-- The nine flags of the control register (R31). -/
inductive TconFlag where
  | gcen
  | r1hw
  | r1a
  | r1w
  | r1b
  | r0hw
  | r0a
  | r0w
  | r0b
  deriving DecidableEq, Repr

/-- The bit position of a flag (`TCON_BIT`, R33). -/
def tconBit : TconFlag → Nat
  | .gcen => 8
  | .r1hw => 7
  | .r1a => 6
  | .r1w => 5
  | .r1b => 4
  | .r0hw => 3
  | .r0a => 2
  | .r0w => 1
  | .r0b => 0

/-- The mask of a flag, `1 << bit` (R131). -/
def flagMask (f : TconFlag) : Tcon := 1#9 <<< tconBit f

/-- `R0_ALL`, the union of the four resistor-0 flags (R34). -/
def r0All : Tcon := flagMask .r0hw ||| flagMask .r0a ||| flagMask .r0w ||| flagMask .r0b

/-- `R1_ALL`, the union of the four resistor-1 flags (R34). -/
def r1All : Tcon := flagMask .r1hw ||| flagMask .r1a ||| flagMask .r1w ||| flagMask .r1b

/-- EMPTY (R132). -/
def tconEmpty : Tcon := 0#9

/-- SET (R135). The result is nine bits wide, which is the rule's `& 0x1FF`. -/
def tconSet (t m : Tcon) : Tcon := t ||| m

/-- CLEAR (R136). -/
def tconClear (t m : Tcon) : Tcon := t &&& ~~~m

/-- TEST (R137): every flag of the mask is set. -/
def tconTest (t m : Tcon) : Bool := (t &&& m) == m

/-- UNION (R138). -/
def tconUnion (a b : Tcon) : Tcon := a ||| b

/-- INTERSECT (R139). -/
def tconIntersect (a b : Tcon) : Tcon := a &&& b

/-- FROM_RAW (R140): the low nine bits; the others are dropped. -/
def tconFromRaw (r : Value) : Tcon := r.extractLsb' 0 9

/-- TO_RAW (R141): widened with zeros. -/
def tconToRaw (t : Tcon) : Value := t.setWidth 16

/-- EQ (R142): all nine bits count. -/
def tconEq (a b : Tcon) : Bool := a == b

/-- The code of a status on the response port (R86). -/
def statusCode : Status → BitVec 3
  | .ok => 0b000#3
  | .transportError => 0b001#3
  | .configMismatch => 0b010#3
  | .refNotBound => 0b100#3
  | .refAlreadyBound => 0b101#3
  | .refBadRegister => 0b110#3
  | .refBadForm => 0b111#3

/-- `is_transport_error` of R216, computed from the status code alone. -/
def isTransportError (r : Response) : Bool := statusCode r.status == 0b001#3

/-- `is_config_mismatch` of R216, computed from the status code alone. -/
def isConfigMismatch (r : Response) : Bool := statusCode r.status == 0b010#3

end Sys2Proof.Machine
end

