-- ==== Sys2Proof/Machine/Operands.lean ====
section
/-! DEFINITION. Machine/Operands.lean: the encoder ENC and the operand assembly (spec/40_command_encoder.md R100 to
R108, spec/30_encoding.md R73 to R77), and the remote register map (spec/10_state.md R37). -/

namespace Sys2Proof.Machine

/-- ENC (R100): pack a command byte; operands wider than their field are masked to it. -/
def enc (a : Nat) (op : CmdOp) (m : Nat) : Byte :=
  BitVec.ofNat 8 (((a &&& 0xF) <<< 4) ||| (((opCode op).toNat &&& 0b11) <<< 2) ||| (m &&& 0b11))

/-- Bits 9..8 of a value, the data-MSB field of a write (R76). -/
def valueMsb (v : Value) : BitVec 2 := v.extractLsb' 8 2

/-- Bits 7..0 of a value, the data-low byte of a write (R76). -/
def valueLow (v : Value) : Byte := v.extractLsb' 0 8

/-- The first byte of a write frame (R73, R106). -/
def writeCommand (a : RegAddr) (v : Value) : Byte := enc a.toNat .write (valueMsb v).toNat

/-- The command byte of a read frame; its data-MSB field is zero (R74, R77, R107). -/
def readCommand (a : RegAddr) : Byte := enc a.toNat .read 0

/-- WFRAME (R106). -/
def wframe (a : RegAddr) (v : Value) : List Byte := [writeCommand a v, valueLow v]

/-- RFRAME (R107). -/
def rframe (a : RegAddr) : List Byte := [readCommand a]

/-- REASM (R108): the first byte received is the more significant one (R55). -/
def reasm (r0 r1 : Byte) : Value := (r0.setWidth 16 <<< 8) ||| r1.setWidth 16

/-- Wiper0 of the register map (R37). -/
def wiper0 : RegAddr := 0x0#4

/-- Wiper1 of the register map (R37). -/
def wiper1 : RegAddr := 0x1#4

/-- Control (TCON) of the register map (R37). -/
def control : RegAddr := 0x4#4

/-- The register address names a register of the map (R37, R84). -/
def mappedReg (r : RegAddr) : Bool := r == wiper0 || r == wiper1 || r == control

end Sys2Proof.Machine
end

