-- ==== Sys2Proof/Machine/Ops.lean ====
section
/-! DEFINITION. Machine/Ops.lean: the operations every meaning shares: reading a register, responding (which is how
this block enters an error, R208) and giving the response up (how it returns from one, R209), issuing and completing a
transaction, admission, and the course of one operation through the phases (spec/42_sequencer.md R160 to R163). -/

namespace Sys2Proof.Machine

/-! ### Registers -/

/-- Read a register and go on with its value; without a value the machine faults (R21). -/
def withValue {α : Type} (r : RegName) (v : Option α) (k : α → Result) : Result :=
  match v with
  | some x => k x
  | none => .fault (.noValue r)

/-- `REQ <- r`. -/
def setReq (r : Request) (s : State) : State := { s with req := some r }

/-- `CMD <- c`. -/
def setCmd (c : Byte) (s : State) : State := { s with cmd := some c }

/-- `DLO <- d`. -/
def setDlo (d : Byte) (s : State) : State := { s with dlo := some d }

/-- `TREQ <- t`. -/
def setTreq (t : Tcon) (s : State) : State := { s with treq := some t }

/-- `REPLY <- v`. -/
def setReply (v : Value) (s : State) : State := { s with reply := some v }

/-- `BUSADDR <- a; BOUND <- 1` (R164): the block is bound. -/
def bindTo (a : BusAddr) (s : State) : State := { s with busaddr := some a, bound := true }

/-- The words at ENC's port from here on: the one at its head has been answered. -/
def setEncIn (later : List Byte) (s : State) : State := { s with encIn := later }

/-- The calls at TCU's port from here on: the one at its head has been answered. -/
def setTcuIn (later : List TcuCall) (s : State) : State := { s with tcuIn := later }

/-- What ENC's output carries. -/
def setEncOut (b : Option Byte) (s : State) : State := { s with encOut := b }

/-- What TCU's output carries. -/
def setTcuOut (y : Option TcuResult) (s : State) : State := { s with tcuOut := y }

/-- The request word at the head of those presented has been accepted. -/
def setPresented (later : List (BitVec 32)) (s : State) : State := { s with presented := later }

/-! ### Responses: the one way an operation ends -/

/-- `respond(status, data, err)` (R163): the response registers are written together and presented. -/
def respond (status : Status) (data : Value) (err : Option TErr) (s : State) : State :=
  { s with rsp := some { status := status, data := data, err := err }, phase := .resp }

/-- `raise` (R8, R208): entry into an error or a refusal. Nothing is saved and no vector is taken. -/
def raiseError (status : Status) (err : Option TErr) (s : State) : State :=
  respond status 0x0000#16 err s

/-- Taking the response (R163): back to `IDLE`, and every register of the operation loses its value (R21). It is also
the return from an error (R209). -/
def takeResponse (s : State) : State :=
  { s with phase := .idle, req := none, cmd := none, dlo := none, treq := none, reply := none, rsp := none }

/-- How many responses the caller is still ready to take. -/
def setTakes (n : Nat) (s : State) : State := { s with takes := n }

/-- One of the responses the caller is ready to take is taken; while there is none, the response is held (R85). -/
def respStep (s : State) : Result :=
  match s.takes with
  | 0 => .next s
  | n + 1 => .next (takeResponse (setTakes n s))

/-! ### Transactions -/

/-- Present a transaction on the bus port and wait for it (R162). -/
def issue (wait : Phase) (t : Txn) (s : State) : State :=
  { s with phase := wait, bus := some t, issued := s.issued ++ [t] }

/-- Issue the `BusWrite` of a write frame held in `CMD` and `DLO`, to `BUSADDR` (R59, R165). -/
def issueWrite (wait : Phase) (s : State) : Result :=
  withValue .busaddr s.busaddr fun a =>
  withValue .cmd s.cmd fun c =>
  withValue .dlo s.dlo fun d =>
  .next (issue wait (.busWrite a [c, d]) s)

/-- Issue the `BusWriteRead` of the command byte held in `CMD`, two bytes back, to `BUSADDR` (R60, R166). -/
def issueRead (wait : Phase) (s : State) : Result :=
  withValue .busaddr s.busaddr fun a =>
  withValue .cmd s.cmd fun c =>
  .next (issue wait (.busWriteRead a [c] 2) s)

/-- The outstanding transaction has completed, and its outcome has been drawn. -/
def completed (later : List Draw) (s : State) : State := { s with bus := none, answers := later }

/-- The completion of the outstanding transaction (R162): the transport's outcome is drawn and the operation goes on
with it in the same step. While the transport gives none, the block waits, for ever if need be (R213). -/
def awaitDraw (k : Draw → State → Result) (s : State) : Result :=
  match s.bus, s.answers with
  | some _, d :: later => k d (completed later s)
  | _, _ => .next s

/-- Emit an event on the diagnostic port when a sink is attached (R215). -/
def emit (e : DiagEvent) (s : State) : State :=
  { s with events := if s.diagPresent then s.events ++ [e] else s.events }

/-! ### Admission and acceptance -/

/-- The admission checks in their order; the status of the first that fails (R161). -/
def admission (r : Request) (bound : Bool) : Option Status :=
  if reservedOpc r then some .refBadForm
  else if !unusedFieldsZero r then some .refBadForm
  else if r.opc == 0b000#3 && bound then some .refAlreadyBound
  else if r.opc != 0b000#3 && !bound then some .refNotBound
  else if (r.opc == 0b001#3 || r.opc == 0b010#3) && !mappedReg r.reg then some .refBadRegister
  else none

/-- Accept a request (R160): `REQ` is written and the admission checks run in the same step; a refusal responds and
changes nothing else, an admitted request begins its operation. -/
def accept (r : Request) (begin : State → Result) (s : State) : Result :=
  match admission r s.bound with
  | some status => .next (raiseError status none (setReq r s))
  | none => begin (setReq r s)

/-- The course of one operation (R160, R162, R163). In `IDLE` its request is accepted. In a wait value of its own it is
continued by the completion of its transaction, if it is the operation in the block (`REQ` holds its request). At any
other time the request is held and nothing changes (R160, R234). -/
def operate (r : Request) (begin : State → Result) (continued : Phase → Option (Draw → State → Result))
    (s : State) : Result :=
  if s.phase = .idle then accept r begin s
  else
    match continued s.phase with
    | none => .next s
    | some k => if s.req = some r then awaitDraw k s else .next s

/-- The step of a wait value: `REQ` says which operation the completion continues (R162). -/
def resume (run : Instr → State → Result) (s : State) : Result :=
  withValue .req s.req fun r =>
  match decodeRequest r with
  | .ok i => run i s
  | .error _ => .fault .noOperation

/-- The step of `IDLE` with a request word at the port: a word that spells no operation is accepted and refused with
`REF_BAD_FORM` (R83, R161); any other begins its operation. -/
def acceptWord (run : Instr → State → Result) (w : BitVec 32) (s : State) : Result :=
  match decodeRequest (unpackRequest w) with
  | .ok i => run i s
  | .error _ => .next (raiseError .refBadForm none (setReq (unpackRequest w) s))

/-! ### The combinational units -/

/-- One part of a step after another; the first that stops is the step's outcome. -/
def andThen (r : Result) (k : State → Result) : Result :=
  match r with
  | .next s => k s
  | .fault f => .fault f
  | .refused q => .refused q

/-- A result on ENC's output. No register of the block is written (R100). -/
def encResult (b : Byte) (s : State) : Result := .next (setEncOut (some b) s)

/-- A result on TCU's output `Y`. No register of the block is written (R130). -/
def tcuY (v : Value) (s : State) : Result := .next (setTcuOut (some (.y v)) s)

/-- A result on TCU's output `F`. No register of the block is written (R130). -/
def tcuF (b : Bool) (s : State) : Result := .next (setTcuOut (some (.f b)) s)

/-- A function select at TCU's port: one that selects no function is refused (R144). -/
def runTcuCall (run : Instr → State → Result) (c : TcuCall) (s : State) : Result :=
  match decodeTcu c.fn c.a c.b with
  | .ok i => run i s
  | .error _ => .refused .tcuNoFunction

/-- ENC during a step: the command at its port gives its byte; with none its output carries nothing (R2, R100).
R100 gives ENC the operands `a`, `op`, `m` and no rule gives its port a format. DESIGN CHOICE (log entry 22): the word
there is the packed CMD8 byte, decoded here, so operands wider than their fields reach ENC through `exec` only. -/
def encPort (run : Instr → State → Result) (s : State) : Result :=
  match s.encIn with
  | [] => .next (setEncOut none s)
  | b :: later => run (decodeCmd b) (setEncIn later s)

/-- TCU during a step: the function selected at its port gives its result; with none its output carries nothing (R2,
R130). -/
def tcuPort (run : Instr → State → Result) (s : State) : Result :=
  match s.tcuIn with
  | [] => .next (setTcuOut none s)
  | c :: later => runTcuCall run c (setTcuIn later s)

/-! ### Reset, and the port a table word is presented at -/

/-- Reset (R230, R231): every register goes to its reset value, and an outstanding transaction is abandoned without a
response. The inputs stay the outside world's; the traces of the output ports keep their past. -/
def resetBlock (s : State) : State :=
  { s with
    bound := false, busaddr := none, phase := .idle, req := none, cmd := none, dlo := none, treq := none,
    reply := none, rsp := none, bus := none, resetLine := false }

/-- The same state with the request port ready: `IDLE`, with no operation in the block. -/
def readyForRequest (s : State) : State := { takeResponse s with bus := none }

/-- The same state with the reset line low, the request port ready, and no word at any port. -/
def quietPorts (s : State) : State :=
  { readyForRequest s with encIn := [], tcuIn := [], presented := [], resetLine := false }

/-- Present a word, and no other, at its port: the next step runs it and nothing else. -/
def presentNext (p : PortWord) (s : State) : State :=
  match p with
  | .req w => { quietPorts s with presented := [w] }
  | .cmd b => { quietPorts s with encIn := [b] }
  | .tcu fn a b => { quietPorts s with tcuIn := [{ fn := fn, a := a, b := b }] }

end Sys2Proof.Machine
end

