-- ==== Sys2Proof/Machine/Encoder.lean ====
section
/-! DEFINITION. Machine/Encoder.lean: the four command codes presented to ENC alone (spec/40_command_encoder.md R101
to R104). Each packs its byte onto ENC's output and writes no register. -/

namespace Sys2Proof.Machine

/-- CMD.W (R101). -/
def execCmdW (a m : Nat) (s : State) : Result := encResult (enc a .write m) s

/-- CMD.INC (R102). -/
def execCmdInc (a m : Nat) (s : State) : Result := encResult (enc a .increment m) s

/-- CMD.DEC (R103). -/
def execCmdDec (a m : Nat) (s : State) : Result := encResult (enc a .decrement m) s

/-- CMD.RD (R104). -/
def execCmdRd (a m : Nat) (s : State) : Result := encResult (enc a .read m) s

end Sys2Proof.Machine
end

