-- ==== Sys2Proof/Machine/Sequencer.lean ====
section
/-! DEFINITION. Machine/Sequencer.lean: the six request operations (spec/42_sequencer.md R164 to R169). Each is one
`operate` over how the operation begins once admitted and how the completion of each of its transactions continues
it. Diagnostic events: spec/60_exceptions.md R215. -/

namespace Sys2Proof.Machine

/-- An operation whose transaction failed ends with the transport's error, verbatim (R201, R205). -/
def failTransport (event : DiagEvent) (e : TErr) (s : State) : Result :=
  .next (raiseError .transportError (some e) (emit event s))

/-! ### PROBE -/

/-- PROBE, admitted: the one-byte probe read of the address it carries (R75, R164). -/
def beginProbe (baddr : BusAddr) (s : State) : Result :=
  .next (issue .probeWait (.busRead baddr 1) s)

/-- PROBE, its read completed: success binds the block, whatever the byte (R164). -/
def finishProbe (baddr : BusAddr) : Draw → State → Result
  | .ok _ _, s =>
    .next (respond .ok 0x0000#16 none
      (emit (.probeResult baddr none) (bindTo baddr s)))
  | .err e, s => failTransport (.probeResult baddr (some e)) e s

/-- The continuations of PROBE. -/
def probeContinued (baddr : BusAddr) : Phase → Option (Draw → State → Result)
  | .probeWait => some (finishProbe baddr)
  | .idle | .wrWait | .rdWait | .cfgWrWait | .cfgRdWait | .resp => none

/-- PROBE (R164). -/
def execProbe (baddr : BusAddr) (s : State) : Result :=
  operate (probeRequest baddr) (beginProbe baddr) (probeContinued baddr) s

/-! ### WRITE and the wipers -/

/-- A write, admitted: the write frame in `CMD` and `DLO`, in one `BusWrite` (R59, R76, R165). -/
def beginWrite (reg : RegAddr) (v : Value) (s : State) : Result :=
  issueWrite .wrWait (setDlo (valueLow v) (setCmd (writeCommand reg v) s))

/-- A write, its transaction completed (R165). -/
def finishWrite (reg : RegAddr) (v : Value) : Draw → State → Result
  | .ok _ _, s => .next (respond .ok 0x0000#16 none (emit (.writeResult reg v none) s))
  | .err e, s => failTransport (.writeResult reg v (some e)) e s

/-- The continuations of a write. -/
def writeContinued (reg : RegAddr) (v : Value) : Phase → Option (Draw → State → Result)
  | .wrWait => some (finishWrite reg v)
  | .idle | .probeWait | .rdWait | .cfgWrWait | .cfgRdWait | .resp => none

/-- WRITE (R165). -/
def execWrite (reg : RegAddr) (v : Value) (s : State) : Result :=
  operate (writeRequest reg v) (beginWrite reg v) (writeContinued reg v) s

/-- SET_WIPER0 (R168): WRITE's course on register 0x0. -/
def execSetWiper0 (v : Value) (s : State) : Result :=
  operate (setWiper0Request v) (beginWrite wiper0 v) (writeContinued wiper0 v) s

/-- SET_WIPER1 (R169): WRITE's course on register 0x1. -/
def execSetWiper1 (v : Value) (s : State) : Result :=
  operate (setWiper1Request v) (beginWrite wiper1 v) (writeContinued wiper1 v) s

/-! ### READ -/

/-- READ, admitted: the read command byte, in one `BusWriteRead` (R60, R77, R166). -/
def beginRead (reg : RegAddr) (s : State) : Result :=
  issueRead .rdWait (setCmd (readCommand reg) s)

/-- READ, its transaction completed: all 16 bits of the reply, unmasked (R166). -/
def finishRead (reg : RegAddr) : Draw → State → Result
  | .ok r0 r1, s =>
    .next (respond .ok (reasm r0 r1) none
      (emit (.readResult reg (.reply (reasm r0 r1))) (setReply (reasm r0 r1) s)))
  | .err e, s => failTransport (.readResult reg (.error e)) e s

/-- The continuations of READ. -/
def readContinued (reg : RegAddr) : Phase → Option (Draw → State → Result)
  | .rdWait => some (finishRead reg)
  | .idle | .probeWait | .wrWait | .cfgWrWait | .cfgRdWait | .resp => none

/-- READ (R166). -/
def execRead (reg : RegAddr) (s : State) : Result :=
  operate (readRequest reg) (beginRead reg) (readContinued reg) s

/-! ### CONFIGURE -/

/-- CONFIGURE, admitted: the requested value is kept in `TREQ` and written to Control (R78, R167). -/
def beginConfigure (t : Tcon) (s : State) : Result :=
  issueWrite .cfgWrWait
    (setDlo (valueLow (tconToRaw t)) (setCmd (writeCommand control (tconToRaw t)) (setTreq t s)))

/-- CONFIGURE, its write completed: the read-back is issued at once (R64, R167). -/
def finishConfigureWrite (t : Tcon) : Draw → State → Result
  | .ok _ _, s =>
    issueRead .cfgRdWait (setCmd (readCommand control) (emit (.writeResult control (tconToRaw t) none) s))
  | .err e, s => failTransport (.writeResult control (tconToRaw t) (some e)) e s

/-- CONFIGURE's comparison of the read-back value with `TREQ` (R79, R167). -/
def compareReadBack (got want : Tcon) (s : State) : State :=
  if tconEq got want then respond .ok 0x0000#16 none s
  else raiseError .configMismatch none (emit (.mismatch want got) s)

/-- CONFIGURE, its read completed (R167). -/
def finishConfigureRead : Draw → State → Result
  | .ok r0 r1, s =>
    withValue .treq s.treq fun want =>
    .next (compareReadBack (tconFromRaw (reasm r0 r1)) want
      (emit (.readResult control (.reply (reasm r0 r1))) (setReply (reasm r0 r1) s)))
  | .err e, s => failTransport (.readResult control (.error e)) e s

/-- The continuations of CONFIGURE. -/
def configureContinued (t : Tcon) : Phase → Option (Draw → State → Result)
  | .cfgWrWait => some (finishConfigureWrite t)
  | .cfgRdWait => some finishConfigureRead
  | .idle | .probeWait | .wrWait | .rdWait | .resp => none

/-- CONFIGURE (R167). -/
def execConfigure (t : Tcon) (s : State) : Result :=
  operate (configureRequest t) (beginConfigure t) (configureContinued t) s

end Sys2Proof.Machine
end

