-- ==== Sys2Proof/Machine/Tcu.lean ====
section
/-! DEFINITION. Machine/Tcu.lean: the eleven functions of TCU (spec/41_tcon.md R132 to R142). A nine-bit result stands
in `Y[8:0]` with `Y[15:9]` zero (R87). -/

namespace Sys2Proof.Machine

/-- TCU.EMPTY (R132). -/
def execTcuEmpty (s : State) : Result := tcuY (tconToRaw tconEmpty) s

/-- TCU.ALL_R0 (R133). -/
def execTcuAllR0 (s : State) : Result := tcuY (tconToRaw r0All) s

/-- TCU.ALL_R1 (R134). -/
def execTcuAllR1 (s : State) : Result := tcuY (tconToRaw r1All) s

/-- TCU.SET (R135). -/
def execTcuSet (t m : Tcon) (s : State) : Result := tcuY (tconToRaw (tconSet t m)) s

/-- TCU.CLEAR (R136). -/
def execTcuClear (t m : Tcon) (s : State) : Result := tcuY (tconToRaw (tconClear t m)) s

/-- TCU.TEST (R137). -/
def execTcuTest (t m : Tcon) (s : State) : Result := tcuF (tconTest t m) s

/-- TCU.UNION (R138). -/
def execTcuUnion (a b : Tcon) (s : State) : Result := tcuY (tconToRaw (tconUnion a b)) s

/-- TCU.INTERSECT (R139). -/
def execTcuIntersect (a b : Tcon) (s : State) : Result := tcuY (tconToRaw (tconIntersect a b)) s

/-- TCU.FROM_RAW (R140). -/
def execTcuFromRaw (r : Value) (s : State) : Result := tcuY (tconToRaw (tconFromRaw r)) s

/-- TCU.TO_RAW (R141). -/
def execTcuToRaw (t : Tcon) (s : State) : Result := tcuY (tconToRaw t) s

/-- TCU.EQ (R142). -/
def execTcuEq (a b : Tcon) (s : State) : Result := tcuF (tconEq a b) s

end Sys2Proof.Machine
end

