-- ==== Sys2Proof/Machine/Dispatch.lean ====
section
/-! DEFINITION. Machine/Dispatch.lean: one arm per instruction. -/

namespace Sys2Proof.Machine

def exec (i : Instr) (s : State) : Host.Outcome State Fault Refusal :=
  match i with
  | .cmdW a m => Sys2Proof.Machine.execCmdW a m s
  | .cmdInc a m => Sys2Proof.Machine.execCmdInc a m s
  | .cmdDec a m => Sys2Proof.Machine.execCmdDec a m s
  | .cmdRd a m => Sys2Proof.Machine.execCmdRd a m s
  | .probe baddr => Sys2Proof.Machine.execProbe baddr s
  | .write reg v => Sys2Proof.Machine.execWrite reg v s
  | .read reg => Sys2Proof.Machine.execRead reg s
  | .configure t => Sys2Proof.Machine.execConfigure t s
  | .setWiper0 v => Sys2Proof.Machine.execSetWiper0 v s
  | .setWiper1 v => Sys2Proof.Machine.execSetWiper1 v s
  | .tcuEmpty => Sys2Proof.Machine.execTcuEmpty s
  | .tcuAllR0 => Sys2Proof.Machine.execTcuAllR0 s
  | .tcuAllR1 => Sys2Proof.Machine.execTcuAllR1 s
  | .tcuSet t m => Sys2Proof.Machine.execTcuSet t m s
  | .tcuClear t m => Sys2Proof.Machine.execTcuClear t m s
  | .tcuTest t m => Sys2Proof.Machine.execTcuTest t m s
  | .tcuUnion a b => Sys2Proof.Machine.execTcuUnion a b s
  | .tcuIntersect a b => Sys2Proof.Machine.execTcuIntersect a b s
  | .tcuFromRaw r => Sys2Proof.Machine.execTcuFromRaw r s
  | .tcuToRaw t => Sys2Proof.Machine.execTcuToRaw t s
  | .tcuEq a b => Sys2Proof.Machine.execTcuEq a b s

end Sys2Proof.Machine
end

