-- ==== Sys2Proof/Machine/Ports.lean ====
section
/-! DEFINITION. Machine/Ports.lean: the parts of a step: the combinational units ENC and TCU answer what is at their
ports (spec/00_scope.md R2), and in the same step SEQ is reset or takes its own step, one of three kinds: accept,
complete and take (spec/42_sequencer.md section 1), told apart by `PHASE`. -/

namespace Sys2Proof.Machine

/-- ENC's part of a step. -/
def encStep (s : State) : Result := encPort exec s

/-- TCU's part of a step. -/
def tcuStep (s : State) : Result := tcuPort exec s

/-- SEQ's step: accept in `IDLE`, take in `RESP`, complete in a wait value; where the agent whose turn it is gives
nothing, the block waits (log entry 19). -/
def seqStep (s : State) : Result :=
  match s.phase with
  | .idle =>
    match s.presented with
    | w :: later => acceptWord exec w (setPresented later s)
    | [] => .next s
  | .resp => respStep s
  | .probeWait | .wrWait | .rdWait | .cfgWrWait | .cfgRdWait => resume exec s

/-- SEQ's part of a step: the reset line goes before everything SEQ does (R230, R231, log entry 7). -/
def seqOrReset (s : State) : Result :=
  if s.resetLine then .next (resetBlock s) else seqStep s

end Sys2Proof.Machine
end

