-- ==== Sys2Proof/Machine/Step.lean ====
section
/-! DEFINITION. Machine/Step.lean: one step of the machine. SEQ is the agent that steps; ENC and TCU have no step of
their own and answer during SEQ's (spec/00_scope.md R2, log entry 6). -/

namespace Sys2Proof.Machine

/-- One step. -/
def step (s : State) : Host.Outcome State Fault Refusal :=
  andThen (andThen (encStep s) tcuStep) seqOrReset

/-- A word of the opcode table presented so that the very next step runs it (log entry 9). -/
def State.withFetchWord (s : State) (nbits w : Nat) : State :=
  match portOfTableWord nbits w with
  | some p => presentNext p s
  | none => s

end Sys2Proof.Machine
end

