-- ==== Sys2Proof/Safety.lean ====
section
/-! DEFINITION. Safety.lean: the terms in which the statements speak of the machine: the invariant that ties the
registers and the bus port to `PHASE`, what a legal bus transaction is, and what two states have in common. -/

namespace Sys2Proof.Machine

/-- A wait value of `PHASE`: a transaction is outstanding (R24). -/
def Phase.isWait : Phase → Bool
  | .idle | .resp => false
  | .probeWait | .wrWait | .rdWait | .cfgWrWait | .cfgRdWait => true

/-- Admission admits the request (R161). -/
def Admitted (r : Request) (s : State) : Prop := admission r s.bound = none

/-- A bound block: `BOUND` is set and `BUSADDR` holds the address (R22, R23). -/
def BoundTo (a : BusAddr) (s : State) : Prop := s.bound = true ∧ s.busaddr = some a

/-- A word of TCU's port that selects no function: `fn` 0xB to 0xF, or an operand bit that R87 requires to be zero is
not (R87, R144). -/
def TcuReserved (c : TcuCall) : Prop :=
  0xB#4 ≤ c.fn ∨ (c.fn ≠ 0x8#4 ∧ c.a.extractLsb' 9 7 ≠ 0#7) ∨ (c.fn ≤ 0x2#4 ∧ (c.a ≠ 0#16 ∨ c.b ≠ 0#9)) ∨
    (0x8#4 ≤ c.fn ∧ c.fn ≤ 0x9#4 ∧ c.b ≠ 0#9)

/-- The word at TCU's port, if there is one, selects a function. -/
def TcuPortOk (s : State) : Prop := ∀ c later, s.tcuIn = c :: later → ¬TcuReserved c

/-- What TCU answers to a word that selects a function, written out from R87 and R132 to R142. -/
def tcuAnswer (c : TcuCall) : TcuResult :=
  match c.fn.toNat with
  | 0x0 => .y 0x0000#16
  | 0x1 => .y 0x000F#16
  | 0x2 => .y 0x00F0#16
  | 0x3 => .y (c.a ||| (0#7 ++ c.b))
  | 0x4 => .y (c.a &&& ~~~(0#7 ++ c.b))
  | 0x5 => .f (decide (c.a &&& (0#7 ++ c.b) = 0#7 ++ c.b))
  | 0x6 => .y (c.a ||| (0#7 ++ c.b))
  | 0x7 => .y (c.a &&& (0#7 ++ c.b))
  | 0x8 => .y (c.a &&& 0x01FF#16)
  | 0x9 => .y c.a
  | _ => .f (decide (c.a = 0#7 ++ c.b))

/-- The state once ENC and TCU have answered what is at their ports, which is all they do (R2, R100, R130). A command
byte decodes to the operands that ENC packs into that byte again (R92, R105), so ENC's answer is the byte. That the
port takes a command byte is log entry 22. -/
def afterUnits (s : State) : State :=
  { s with
    encIn := s.encIn.tail, encOut := s.encIn.head?,
    tcuIn := s.tcuIn.tail, tcuOut := s.tcuIn.head?.map tcuAnswer }

/-- The state without what concerns ENC and TCU alone: nothing at their ports, nothing on their outputs. -/
def State.withoutUnits (s : State) : State := { s with encIn := [], encOut := none, tcuIn := [], tcuOut := none }

/-- The reset line is low and TCU's port does not stop the step, so a step is SEQ's. -/
def SeqTurn (s : State) : Prop := s.resetLine = false ∧ TcuPortOk s

/-- The registers an operation uses between acceptance and response have no value (R21). -/
def NoDatapath (s : State) : Prop := s.cmd = none ∧ s.dlo = none ∧ s.treq = none ∧ s.reply = none

/-- The operation in the block, by its request, is a write of value `v` to register `reg`: WRITE or SET_WIPERn. -/
def WriteRequested (reg : RegAddr) (v : Value) (r : Request) : Prop :=
  (r = writeRequest reg v ∧ mappedReg reg = true) ∨ (r = setWiper0Request v ∧ reg = wiper0) ∨
    (r = setWiper1Request v ∧ reg = wiper1)

/-- A response is coherent: the error payload is present exactly for `TRANSPORT_ERROR`, data other than zero comes
only from a READ that is `OK`, and only a CONFIGURE mismatches (R29, R85, R202). -/
def ResponseCoherent (r : Request) (p : Response) : Prop :=
  (p.err.isSome = true ↔ p.status = .transportError) ∧
  (p.data ≠ 0#16 → p.status = .ok ∧ ∃ reg, r = readRequest reg) ∧
  (p.status = .configMismatch → ∃ t, r = configureRequest t)

/-- What the registers and the bus port hold in each value of `PHASE` (R21, R24, R164 to R169). -/
def PhaseInv (s : State) : Prop :=
  match s.phase with
  | .idle => s.req = none ∧ NoDatapath s ∧ s.rsp = none ∧ s.bus = none
  | .probeWait =>
    NoDatapath s ∧ s.rsp = none ∧ s.bound = false ∧
      ∃ a, s.req = some (probeRequest a) ∧ s.bus = some (.busRead a 1)
  | .wrWait =>
    s.treq = none ∧ s.reply = none ∧ s.rsp = none ∧
      ∃ a reg v r, BoundTo a s ∧ s.req = some r ∧ WriteRequested reg v r ∧
        s.cmd = some (writeCommand reg v) ∧ s.dlo = some (valueLow v) ∧ s.bus = some (.busWrite a (wframe reg v))
  | .rdWait =>
    s.dlo = none ∧ s.treq = none ∧ s.reply = none ∧ s.rsp = none ∧
      ∃ a reg, BoundTo a s ∧ s.req = some (readRequest reg) ∧ mappedReg reg = true ∧
        s.cmd = some (readCommand reg) ∧ s.bus = some (.busWriteRead a (rframe reg) 2)
  | .cfgWrWait =>
    s.reply = none ∧ s.rsp = none ∧
      ∃ a t, BoundTo a s ∧ s.req = some (configureRequest t) ∧ s.treq = some t ∧
        s.cmd = some (writeCommand control (tconToRaw t)) ∧ s.dlo = some (valueLow (tconToRaw t)) ∧
        s.bus = some (.busWrite a (wframe control (tconToRaw t)))
  | .cfgRdWait =>
    s.reply = none ∧ s.rsp = none ∧
      ∃ a t, BoundTo a s ∧ s.req = some (configureRequest t) ∧ s.treq = some t ∧
        s.cmd = some (readCommand control) ∧ s.dlo = some (valueLow (tconToRaw t)) ∧
        s.bus = some (.busWriteRead a (rframe control) 2)
  | .resp =>
    s.bus = none ∧ ∃ r p, s.req = some r ∧ s.rsp = some p ∧ ResponseCoherent r p

/-- The invariant of the machine: `BUSADDR` has a value exactly when the block is bound (R22, R23), and `PHASE` says
what every other register holds. -/
def Invariant (s : State) : Prop := s.bound = s.busaddr.isSome ∧ PhaseInv s

/-- A transaction the block may issue: the probe read, a write frame or a read frame of a mapped register, never
Increment or Decrement (R58, R62, R73 to R75, R89). -/
def LegalTxn : Txn → Prop
  | .busRead _ n => n = 1
  | .busWrite _ out => ∃ reg v, mappedReg reg = true ∧ out = wframe reg v
  | .busWriteRead _ out n => n = 2 ∧ ∃ reg, mappedReg reg = true ∧ out = rframe reg

/-- Every transaction issued so far is legal. -/
def IssuedLegal (s : State) : Prop := ∀ t ∈ s.issued, LegalTxn t

/-- Where a transaction is addressed to. -/
def Txn.address : Txn → BusAddr
  | .busWrite a _ => a
  | .busRead a _ => a
  | .busWriteRead a _ _ => a

/-- The registers of the block (R20) hold the same in both states. -/
def SameRegisters (s t : State) : Prop :=
  t.bound = s.bound ∧ t.busaddr = s.busaddr ∧ t.phase = s.phase ∧ t.req = s.req ∧ t.cmd = s.cmd ∧ t.dlo = s.dlo ∧
    t.treq = s.treq ∧ t.reply = s.reply ∧ t.rsp = s.rsp

/-- The state without what concerns diagnostics: no sink attached, no event emitted (R215). -/
def State.withoutDiagnostics (s : State) : State := { s with events := [], diagPresent := false }

/-- A response whose error payload is renamed. -/
def Response.mapErr (f : TErr → TErr) (p : Response) : Response := { p with err := p.err.map f }

/-- An outcome whose error payload is renamed. -/
def Draw.mapErr (f : TErr → TErr) : Draw → Draw
  | .ok b0 b1 => .ok b0 b1
  | .err e => .err (f e)

/-- A read's report whose error payload is renamed. -/
def ReadReport.mapErr (f : TErr → TErr) : ReadReport → ReadReport
  | .reply v => .reply v
  | .error e => .error (f e)

/-- A diagnostic event whose error payload is renamed. -/
def DiagEvent.mapErr (f : TErr → TErr) : DiagEvent → DiagEvent
  | .probeResult a e => .probeResult a (e.map f)
  | .writeResult reg v e => .writeResult reg v (e.map f)
  | .readResult reg p => .readResult reg (p.mapErr f)
  | .mismatch want got => .mismatch want got

/-- The state in which every error payload, wherever it stands, is renamed. -/
def State.mapErr (f : TErr → TErr) (s : State) : State :=
  { s with
    rsp := s.rsp.map (Response.mapErr f), events := s.events.map (DiagEvent.mapErr f),
    answers := s.answers.map (Draw.mapErr f) }

/-- A request word is held at the request port, and a step is SEQ's. -/
def Presents (w : BitVec 32) (later : List (BitVec 32)) (s : State) : Prop :=
  SeqTurn s ∧ s.presented = w :: later

/-- The operation with request `r` waits in `PHASE` value `ph`, and the transport completes its transaction with
`d`. -/
def Completing (r : Request) (ph : Phase) (d : Draw) (later : List Draw) (s : State) : Prop :=
  s.phase = ph ∧ s.req = some r ∧ s.bus.isSome = true ∧ s.answers = d :: later

/-- The state in which request `r` has been refused with `status`: only `REQ`, `PHASE` and the response registers
differ (R161, R203). -/
def refusedWith (status : Status) (r : Request) (s : State) : State :=
  { s with req := some r, rsp := some { status := status, data := 0#16, err := none }, phase := .resp }

/-- The events emitted once `es` are, if a sink is attached (R215). -/
def eventsWith (es : List DiagEvent) (s : State) : List DiagEvent :=
  if s.diagPresent then s.events ++ es else s.events

/-- The error of an outcome, `none` for a success. -/
def Draw.failure : Draw → Option TErr
  | .ok _ _ => none
  | .err e => some e

/-- What a completed two-byte read reports: the reply, its first byte the more significant (R55), or the error. -/
def Draw.report : Draw → ReadReport
  | .ok r0 r1 => .reply (r0 ++ r1)
  | .err e => .error e

/-- The request has a reserved `opc`, or a field that R82's table requires to be zero is not (R83). -/
def BadForm (r : Request) : Prop :=
  r.opc = 6#3 ∨ r.opc = 7#3 ∨ r.rsv ≠ 0#2 ∨
  (r.opc = 0#3 ∧ (r.reg ≠ 0#4 ∨ r.data ≠ 0#16)) ∨
  (r.opc = 1#3 ∧ r.baddr ≠ 0#7) ∨
  (r.opc = 2#3 ∧ (r.baddr ≠ 0#7 ∨ r.data ≠ 0#16)) ∨
  (r.opc = 3#3 ∧ (r.reg ≠ 0#4 ∨ r.baddr ≠ 0#7 ∨ r.data.extractLsb' 9 7 ≠ 0#7)) ∨
  (r.opc = 4#3 ∧ (r.reg ≠ 0#4 ∨ r.baddr ≠ 0#7)) ∨
  (r.opc = 5#3 ∧ (r.reg ≠ 0#4 ∨ r.baddr ≠ 0#7))

/-- A register address of the map (R37, R84). -/
def Mapped (reg : RegAddr) : Prop := reg = 0x0#4 ∨ reg = 0x1#4 ∨ reg = 0x4#4

/-- A run of `n` steps that reaches a state: no step faulted or refused. -/
def Reaches (n : Nat) (s t : State) : Prop := Host.Core.run Sys2Proof.core n s = .next t

end Sys2Proof.Machine
end

