-- ==== Sys2Proof/Certificates/Slice0/Obligations.lean ====
section
/-! DEFINITION. Obligations.lean: the statements for the provers. Each is about every state (or every state that
satisfies the hypotheses it names), and says in full what the next state is: a record update names all that changes,
so each such statement is its instruction's frame as well. Frames and bytes are written out in bits from the spec's
formats, not with the model's own encoder. -/

open Sys2Proof Sys2Proof.Machine

/-! ### Encodings -/

/-- Every well-formed instruction, with every operand its encoding admits, is decoded from its own word. -/
def Obligations.DecodeOfEncodeIsTheInstruction : Prop :=
  ∀ i : Instr, wellFormed i = true → decode (encode i) = .ok i

/-- Conversely, a word that decodes is the encoding of the well-formed instruction it decodes to: no two words of a
port spell one instruction, and no bit of a word is dropped. -/
def Obligations.DecodedWordIsTheEncoding : Prop :=
  ∀ (p : PortWord) (i : Instr), decode p = .ok i → wellFormed i = true ∧ encode i = p

/-- A request spells no operation exactly when it has bad form (R82, R83). -/
def Obligations.RequestSpellsNothingExactlyOnBadForm : Prop :=
  ∀ r : Request, (∃ e, decodeRequest r = .error e) ↔ BadForm r

/-- Words written out by hand decode to their instructions: the six request words of R91's table, the examples of R101
to R104, and one word of each of TCU's eleven functions (R87). -/
def Obligations.ExampleWordsDecode : Prop :=
  decode (.req 0x002C0000#32) = .ok (.probe 0x2C#7) ∧
  decode (.req 0x280001FF#32) = .ok (.write 0x4#4 0x01FF#16) ∧
  decode (.req 0x42000000#32) = .ok (.read 0x1#4) ∧
  decode (.req 0x6000000F#32) = .ok (.configure 0x00F#9) ∧
  decode (.req 0x80000200#32) = .ok (.setWiper0 0x0200#16) ∧
  decode (.req 0xA00003FF#32) = .ok (.setWiper1 0x03FF#16) ∧
  decode (.cmd 0b00000010#8) = .ok (.cmdW 0 2) ∧
  decode (.cmd 0b00010100#8) = .ok (.cmdInc 1 0) ∧
  decode (.cmd 0b00001000#8) = .ok (.cmdDec 0 0) ∧
  decode (.cmd 0b01001100#8) = .ok (.cmdRd 4 0) ∧
  decode (.tcu 0b0000#4 0x0000#16 0x000#9) = .ok .tcuEmpty ∧
  decode (.tcu 0b0001#4 0x0000#16 0x000#9) = .ok .tcuAllR0 ∧
  decode (.tcu 0b0010#4 0x0000#16 0x000#9) = .ok .tcuAllR1 ∧
  decode (.tcu 0b0011#4 0x000F#16 0x100#9) = .ok (.tcuSet 0x00F#9 0x100#9) ∧
  decode (.tcu 0b0100#4 0x01FF#16 0x00F#9) = .ok (.tcuClear 0x1FF#9 0x00F#9) ∧
  decode (.tcu 0b0101#4 0x0007#16 0x00F#9) = .ok (.tcuTest 0x007#9 0x00F#9) ∧
  decode (.tcu 0b0110#4 0x000F#16 0x0F0#9) = .ok (.tcuUnion 0x00F#9 0x0F0#9) ∧
  decode (.tcu 0b0111#4 0x00FF#16 0x1F0#9) = .ok (.tcuIntersect 0x0FF#9 0x1F0#9) ∧
  decode (.tcu 0b1000#4 0xFE0F#16 0x000#9) = .ok (.tcuFromRaw 0xFE0F#16) ∧
  decode (.tcu 0b1001#4 0x01FF#16 0x000#9) = .ok (.tcuToRaw 0x1FF#9) ∧
  decode (.tcu 0b1010#4 0x000F#16 0x10F#9) = .ok (.tcuEq 0x00F#9 0x10F#9)

/-- ENC cuts every operand to its field and puts the fields side by side: no operand can change another's field, and
none is rejected (R72). -/
def Obligations.EncoderMasksEachField : Prop :=
  ∀ (a : Nat) (op : CmdOp) (m : Nat),
    (enc a op m).extractLsb' 4 4 = BitVec.ofNat 4 a ∧
    (enc a op m).extractLsb' 2 2 =
      (match op with | .write => 0b00#2 | .increment => 0b01#2 | .decrement => 0b10#2 | .read => 0b11#2) ∧
    (enc a op m).extractLsb' 0 2 = BitVec.ofNat 2 m

/-- On in-range operands ENC is injective, every byte is the encoding of some in-range triple, and decoding gives the
triple back (R105). -/
def Obligations.EncoderIsInjectiveAndOnto : Prop :=
  (∀ (a a' m m' : Nat) (op op' : CmdOp), a < 16 → a' < 16 → m < 4 → m' < 4 →
    enc a op m = enc a' op' m' → a = a' ∧ op = op' ∧ m = m') ∧
  (∀ b : Byte, ∃ (a : Nat) (op : CmdOp) (m : Nat), a < 16 ∧ m < 4 ∧ enc a op m = b) ∧
  (∀ (a : Nat) (op : CmdOp) (m : Nat), a < 16 → m < 4 → decodeCmd (enc a op m) = commandOf op a m)

/-- The three frame functions, bit for bit: WFRAME (R106), RFRAME (R107) and REASM (R108). -/
def Obligations.FramesAreBitExact : Prop :=
  (∀ (a : RegAddr) (v : Value),
    wframe a v = [a ++ 0b00#2 ++ v.extractLsb' 8 2, v.extractLsb' 0 8]) ∧
  (∀ a : RegAddr, rframe a = [a ++ 0b11#2 ++ 0b00#2]) ∧
  (∀ r0 r1 : Byte, reasm r0 r1 = r0 ++ r1)

/-- A write frame carries the low ten bits of the value and nothing else of it (R109). -/
def Obligations.WriteFrameTruncatesToTenBits : Prop :=
  ∀ (a : RegAddr) (v : Value), wframe a v = wframe a (v &&& 0x3FF#16)

/-- A write frame read back gives the ten bits written, under the command byte's address and operation fields
(R110, derived there from R106 and R108). -/
def Obligations.EchoedFrameGivesTheValueBack : Prop :=
  ∀ (a : RegAddr) (v : Value) (b0 b1 : Byte), wframe a v = [b0, b1] →
    reasm b0 b1 &&& 0x3FF#16 = v &&& 0x3FF#16 ∧ (reasm b0 b1).extractLsb' 10 6 = a ++ 0b00#2

/-! ### ENC and TCU as instructions -/

/-- The four command codes complete in every state, on every operand, with the byte on ENC's output and nothing else
changed. ENC's output port is the model's own (log entry 6). -/
def Obligations.CommandCodesComplete : Prop :=
  ∀ (a m : Nat) (s : State),
    exec (.cmdW a m) s = .next { s with encOut := some (BitVec.ofNat 4 a ++ 0b00#2 ++ BitVec.ofNat 2 m) } ∧
    exec (.cmdInc a m) s = .next { s with encOut := some (BitVec.ofNat 4 a ++ 0b01#2 ++ BitVec.ofNat 2 m) } ∧
    exec (.cmdDec a m) s = .next { s with encOut := some (BitVec.ofNat 4 a ++ 0b10#2 ++ BitVec.ofNat 2 m) } ∧
    exec (.cmdRd a m) s = .next { s with encOut := some (BitVec.ofNat 4 a ++ 0b11#2 ++ BitVec.ofNat 2 m) }

/-- EMPTY, ALL_R0 and ALL_R1 complete in every state with the values of R132 to R134 on `Y`. That the result
stands in State, as what TCU's output carried during the step, is the model's own (log entry 6). -/
def Obligations.TcuConstructorsComplete : Prop :=
  ∀ s : State,
    exec .tcuEmpty s = .next { s with tcuOut := some (.y 0x0000#16) } ∧
    exec .tcuAllR0 s = .next { s with tcuOut := some (.y 0x000F#16) } ∧
    exec .tcuAllR1 s = .next { s with tcuOut := some (.y 0x00F0#16) }

/-- SET, CLEAR, UNION and INTERSECT complete in every state, bit by bit of `Y`: bit i of the result is the operation
on bits i, and bits 15..9 are zero (R87, R135, R136, R138, R139; log entry 6). -/
def Obligations.TcuBitwiseFunctionsComplete : Prop :=
  ∀ (t m : Tcon) (s : State), ∃ yS yC yU yI : Value,
    exec (.tcuSet t m) s = .next { s with tcuOut := some (.y yS) } ∧
    exec (.tcuClear t m) s = .next { s with tcuOut := some (.y yC) } ∧
    exec (.tcuUnion t m) s = .next { s with tcuOut := some (.y yU) } ∧
    exec (.tcuIntersect t m) s = .next { s with tcuOut := some (.y yI) } ∧
    ∀ i : Nat,
      yS.getLsbD i = (t.getLsbD i || m.getLsbD i) ∧
      yC.getLsbD i = (t.getLsbD i && !m.getLsbD i) ∧
      yU.getLsbD i = (t.getLsbD i || m.getLsbD i) ∧
      yI.getLsbD i = (t.getLsbD i && m.getLsbD i)

/-- TEST and EQ complete in every state with a flag: TEST's is set exactly when every flag of the mask is (R137), EQ's
exactly when the values agree in all nine bits (R142); log entry 6. -/
def Obligations.TcuFlagFunctionsComplete : Prop :=
  ∀ (t m : Tcon) (s : State), ∃ fT fE : Bool,
    exec (.tcuTest t m) s = .next { s with tcuOut := some (.f fT) } ∧
    exec (.tcuEq t m) s = .next { s with tcuOut := some (.f fE) } ∧
    (fT = true ↔ ∀ i < 9, m.getLsbD i = true → t.getLsbD i = true) ∧
    (fE = true ↔ ∀ i < 9, m.getLsbD i = t.getLsbD i)

/-- FROM_RAW and TO_RAW complete in every state: FROM_RAW keeps the low nine bits whatever the others are (R140),
TO_RAW adds zeros (R141); log entry 6. -/
def Obligations.TcuConversionsComplete : Prop :=
  ∀ (r : Value) (t : Tcon) (s : State),
    exec (.tcuFromRaw r) s = .next { s with tcuOut := some (.y (0#7 ++ r.extractLsb' 0 9)) } ∧
    exec (.tcuToRaw t) s = .next { s with tcuOut := some (.y (0#7 ++ t)) }

/-- FROM_RAW undoes TO_RAW (R141, R143, which the spec derives); it is function 0x8 on any `A`, and gives the nine low
bits whatever the seven bits above them hold, none of which is rejected (R140). -/
def Obligations.FromRawDropsHighBits : Prop :=
  ∀ (t : Tcon) (high : BitVec 7),
    decode (.tcu 0x8#4 (high ++ t) 0#9) = .ok (.tcuFromRaw (high ++ t)) ∧
    tconFromRaw (high ++ t) = t ∧ tconFromRaw (tconToRaw t) = t

/-- The flag masks and the two unions, as R131 lists them. -/
def Obligations.FlagMasksAreAsListed : Prop :=
  flagMask .gcen = 0x100#9 ∧ flagMask .r1hw = 0x080#9 ∧ flagMask .r1a = 0x040#9 ∧ flagMask .r1w = 0x020#9 ∧
  flagMask .r1b = 0x010#9 ∧ flagMask .r0hw = 0x008#9 ∧ flagMask .r0a = 0x004#9 ∧ flagMask .r0w = 0x002#9 ∧
  flagMask .r0b = 0x001#9 ∧ r0All = 0x00F#9 ∧ r1All = 0x0F0#9

/-- A step is refused exactly when the word at TCU's port selects no function: `fn` is 0xB to 0xF, or an operand bit
that R87 requires to be zero is not (R87, R144; log entry 12). -/
def Obligations.TcuRefusesExactlyTheReservedWords : Prop :=
  ∀ (c : TcuCall) (later : List TcuCall) (s : State) (q : Refusal), s.tcuIn = c :: later →
    (step s = .refused q ↔ q = .tcuNoFunction ∧
      (0xB#4 ≤ c.fn ∨ (c.fn ≠ 0x8#4 ∧ c.a.extractLsb' 9 7 ≠ 0#7) ∨ (c.fn ≤ 0x2#4 ∧ (c.a ≠ 0#16 ∨ c.b ≠ 0#9)) ∨
        (0x8#4 ≤ c.fn ∧ c.fn ≤ 0x9#4 ∧ c.b ≠ 0#9)))

/-- ENC and TCU are combinational (R2, R100, R130): what is at their ports, or was on their outputs, neither holds SEQ
up nor moves anything of it. Unless TCU refuses the word, the step is the one of the same state with nothing at these
ports, in every register, in every other port and input, and in its stop where it stops. -/
def Obligations.CombinationalUnitsLeaveTheBlockAlone : Prop :=
  ∀ s : State, TcuPortOk s →
    match step s, step s.withoutUnits with
    | .next t, .next u => t.withoutUnits = u
    | .fault f, .fault g => f = g
    | .refused q, .refused r => q = r
    | _, _ => False

/-- ENC and TCU answer in the very step in which a word is at their port, whatever SEQ does in it, and hold nothing:
after a step their outputs carry the answers to the words that were there, and nothing where there was none (R2, R87,
R92, R100, R105, R130). That a word stays for one step, and that the answer stands in State, is the model's own (log
entry 6), and so is that the word at ENC's port is a packed command byte, which ENC's answer then equals (log entry
22). -/
def Obligations.UnitsAnswerInTheSameStep : Prop :=
  ∀ s t : State, step s = .next t →
    t.encOut = s.encIn.head? ∧ t.encIn = s.encIn.tail ∧
    t.tcuOut = s.tcuIn.head?.map tcuAnswer ∧ t.tcuIn = s.tcuIn.tail

/-! ### Stepping -/

/-- A step runs the decoded instruction. A command byte or a function select at its port that decodes to `i` is run as
`i`, in the same step as what is at the other ports; alone, the step is `i` and nothing else. A request word at the
ready port is run as the instruction it decodes to once the units have answered, and in a wait value the step runs the
operation that `REQ` spells. The model's own: a word at ENC's or TCU's port is run within a step, which R2 makes SEQ's
(log entry 6), the word at ENC's is a command byte (log entry 22), and a wait value's step finds its operation by
decoding `REQ` (log entry 16). -/
def Obligations.StepRunsTheDecodedInstruction : Prop :=
  (∀ (b : Byte) (later : List Byte) (i : Instr) (s : State), s.encIn = b :: later → decode (.cmd b) = .ok i →
    step s = andThen (andThen (exec i { s with encIn := later }) tcuStep) seqOrReset) ∧
  (∀ (c : TcuCall) (later : List TcuCall) (i : Instr) (s u : State),
    encStep s = .next u → s.tcuIn = c :: later → decode (.tcu c.fn c.a c.b) = .ok i →
    step s = andThen (exec i { u with tcuIn := later }) seqOrReset) ∧
  (∀ (b : Byte) (i : Instr) (s : State), s.resetLine = false → s.phase = .idle → s.presented = [] →
    s.encIn = [b] → s.tcuIn = [] → decode (.cmd b) = .ok i → step s = exec i { s with encIn := [], tcuOut := none }) ∧
  (∀ (c : TcuCall) (i : Instr) (s : State), s.resetLine = false → s.phase = .idle → s.presented = [] →
    s.encIn = [] → s.tcuIn = [c] → decode (.tcu c.fn c.a c.b) = .ok i →
    step s = exec i { s with tcuIn := [], encOut := none }) ∧
  (∀ (w : BitVec 32) (later : List (BitVec 32)) (i : Instr) (s : State),
    s.phase = .idle → Presents w later s → decode (.req w) = .ok i →
    step s = exec i { afterUnits s with presented := later }) ∧
  (∀ (r : Request) (i : Instr) (s : State),
    SeqTurn s → s.phase.isWait = true → s.req = some r → decodeRequest r = .ok i → step s = exec i (afterUnits s))

/-- The admission checks, in their order (R161): at a ready port every request word is accepted; the first check that
fails gives the response, with no transaction and no register changed but `REQ`, `PHASE` and the response registers;
a request that passes them all issues exactly one transaction in the same step. -/
def Obligations.AdmissionChecksInOrder : Prop :=
  ∀ (w : BitVec 32) (r : Request) (later : List (BitVec 32)) (s : State),
    s.phase = .idle → Presents w later s → r = unpackRequest w → s.bound = s.busaddr.isSome →
    (BadForm r →
      step s = .next (refusedWith .refBadForm r { afterUnits s with presented := later })) ∧
    (¬BadForm r → r.opc = 0#3 → s.bound = true →
      step s = .next (refusedWith .refAlreadyBound r { afterUnits s with presented := later })) ∧
    (¬BadForm r → r.opc ≠ 0#3 → s.bound = false →
      step s = .next (refusedWith .refNotBound r { afterUnits s with presented := later })) ∧
    (¬BadForm r → s.bound = true → (r.opc = 1#3 ∨ r.opc = 2#3) → ¬Mapped r.reg →
      step s = .next (refusedWith .refBadRegister r { afterUnits s with presented := later })) ∧
    (¬BadForm r → (r.opc = 0#3 ↔ s.bound = false) → ((r.opc = 1#3 ∨ r.opc = 2#3) → Mapped r.reg) →
      ∃ (t : State) (x : Txn), step s = .next t ∧ t.req = some r ∧ t.phase.isWait = true ∧ t.bus = some x ∧
        t.issued = s.issued ++ [x] ∧ t.rsp = s.rsp ∧ t.bound = s.bound ∧ t.busaddr = s.busaddr)

/-- PROBE (R164): unbound and idle, it issues a one-byte read of the address it carries; the read's success binds the
block to that address whatever byte came, its failure is the response and leaves the handle; bound, or with a field
that must be zero not zero, it is refused.
The outcome is the head of `answers` (log entry 4); the events `es` a completion emits are CompletionsEmitTheirEvents'. -/
def Obligations.ProbeBindsTheBlock : Prop :=
  ∀ (a : BusAddr) (s : State),
    (s.phase = .idle → s.bound = false →
      exec (.probe a) s = .next { s with
        req := some (probeRequest a), phase := .probeWait, bus := some (.busRead a 1),
        issued := s.issued ++ [.busRead a 1] }) ∧
    (∀ (b0 b1 : Byte) (later : List Draw), Completing (probeRequest a) .probeWait (.ok b0 b1) later s →
      ∃ es, exec (.probe a) s = .next { s with
        bound := true, busaddr := some a, bus := none, answers := later,
        rsp := some { status := .ok, data := 0#16, err := none }, phase := .resp,
        events := s.events ++ es }) ∧
    (∀ (e : TErr) (later : List Draw), Completing (probeRequest a) .probeWait (.err e) later s →
      ∃ es, exec (.probe a) s = .next { s with
        bus := none, answers := later,
        rsp := some { status := .transportError, data := 0#16, err := some e }, phase := .resp,
        events := s.events ++ es }) ∧
    (s.phase = .idle → s.bound = true →
      exec (.probe a) s = .next (refusedWith .refAlreadyBound (probeRequest a) s)) ∧
    (∀ (w : BitVec 32) (later : List (BitVec 32)), s.phase = .idle → Presents w later s →
      (unpackRequest w).opc = 0#3 →
      ((unpackRequest w).reg ≠ 0#4 ∨ (unpackRequest w).rsv ≠ 0#2 ∨ (unpackRequest w).data ≠ 0#16) →
      step s = .next (refusedWith .refBadForm (unpackRequest w) { afterUnits s with presented := later }))

/-- WRITE (R165): bound and idle, to a mapped register, it issues one `BusWrite` of the write frame to `BUSADDR`;
success and failure of that transaction are its response; unbound, to an unmapped register, or with a field that must
be zero not zero, it is refused.
The outcome is the head of `answers` (log entry 4); the events `es` a completion emits are CompletionsEmitTheirEvents'. -/
def Obligations.WriteSendsOneFrame : Prop :=
  ∀ (reg : RegAddr) (v : Value) (s : State),
    (∀ a : BusAddr, s.phase = .idle → BoundTo a s → Mapped reg →
      exec (.write reg v) s = .next { s with
        req := some (writeRequest reg v), cmd := some (reg ++ 0b00#2 ++ v.extractLsb' 8 2),
        dlo := some (v.extractLsb' 0 8), phase := .wrWait,
        bus := some (.busWrite a [reg ++ 0b00#2 ++ v.extractLsb' 8 2, v.extractLsb' 0 8]),
        issued := s.issued ++ [.busWrite a [reg ++ 0b00#2 ++ v.extractLsb' 8 2, v.extractLsb' 0 8]] }) ∧
    (∀ (b0 b1 : Byte) (later : List Draw), Completing (writeRequest reg v) .wrWait (.ok b0 b1) later s →
      ∃ es, exec (.write reg v) s = .next { s with
        bus := none, answers := later,
        rsp := some { status := .ok, data := 0#16, err := none }, phase := .resp,
        events := s.events ++ es }) ∧
    (∀ (e : TErr) (later : List Draw), Completing (writeRequest reg v) .wrWait (.err e) later s →
      ∃ es, exec (.write reg v) s = .next { s with
        bus := none, answers := later,
        rsp := some { status := .transportError, data := 0#16, err := some e }, phase := .resp,
        events := s.events ++ es }) ∧
    (s.phase = .idle → s.bound = false →
      exec (.write reg v) s = .next (refusedWith .refNotBound (writeRequest reg v) s)) ∧
    (s.phase = .idle → s.bound = true → ¬Mapped reg →
      exec (.write reg v) s = .next (refusedWith .refBadRegister (writeRequest reg v) s)) ∧
    (∀ (w : BitVec 32) (later : List (BitVec 32)), s.phase = .idle → Presents w later s →
      (unpackRequest w).opc = 1#3 → ((unpackRequest w).rsv ≠ 0#2 ∨ (unpackRequest w).baddr ≠ 0#7) →
      step s = .next (refusedWith .refBadForm (unpackRequest w) { afterUnits s with presented := later }))

/-- READ (R166): bound and idle, of a mapped register, it issues one `BusWriteRead` of the read command byte to
`BUSADDR`, two bytes back; the reply, all 16 bits of it with the first byte the more significant, is the response's
data; a failure is the response; unbound, of an unmapped register, or with a field that must be zero not zero, it is
refused.
The outcome is the head of `answers` (log entry 4); the events `es` a completion emits are CompletionsEmitTheirEvents'. -/
def Obligations.ReadReturnsTheWholeReply : Prop :=
  ∀ (reg : RegAddr) (s : State),
    (∀ a : BusAddr, s.phase = .idle → BoundTo a s → Mapped reg →
      exec (.read reg) s = .next { s with
        req := some (readRequest reg), cmd := some (reg ++ 0b11#2 ++ 0b00#2), phase := .rdWait,
        bus := some (.busWriteRead a [reg ++ 0b11#2 ++ 0b00#2] 2),
        issued := s.issued ++ [.busWriteRead a [reg ++ 0b11#2 ++ 0b00#2] 2] }) ∧
    (∀ (r0 r1 : Byte) (later : List Draw), Completing (readRequest reg) .rdWait (.ok r0 r1) later s →
      ∃ es, exec (.read reg) s = .next { s with
        bus := none, answers := later, reply := some (r0 ++ r1),
        rsp := some { status := .ok, data := r0 ++ r1, err := none }, phase := .resp,
        events := s.events ++ es }) ∧
    (∀ (e : TErr) (later : List Draw), Completing (readRequest reg) .rdWait (.err e) later s →
      ∃ es, exec (.read reg) s = .next { s with
        bus := none, answers := later,
        rsp := some { status := .transportError, data := 0#16, err := some e }, phase := .resp,
        events := s.events ++ es }) ∧
    (s.phase = .idle → s.bound = false →
      exec (.read reg) s = .next (refusedWith .refNotBound (readRequest reg) s)) ∧
    (s.phase = .idle → s.bound = true → ¬Mapped reg →
      exec (.read reg) s = .next (refusedWith .refBadRegister (readRequest reg) s)) ∧
    (∀ (w : BitVec 32) (later : List (BitVec 32)), s.phase = .idle → Presents w later s →
      (unpackRequest w).opc = 2#3 →
      ((unpackRequest w).rsv ≠ 0#2 ∨ (unpackRequest w).baddr ≠ 0#7 ∨ (unpackRequest w).data ≠ 0#16) →
      step s = .next (refusedWith .refBadForm (unpackRequest w) { afterUnits s with presented := later }))

/-- CONFIGURE (R167): bound and idle, it keeps the request in `TREQ` and issues the write of it to Control; a failed
write ends it with no read issued; a completed one issues the read-back in the same step. The read-back is compared
with `TREQ` in exactly the nine low bits of the reply: equal is `OK`, different is `CONFIG_MISMATCH` with no payload; a
failed read is the response. Unbound, or with a field that must be zero not zero, it is refused.
The outcome is the head of `answers` (log entry 4); the events `es` a completion emits are CompletionsEmitTheirEvents'. -/
def Obligations.ConfigureWritesAndVerifies : Prop :=
  ∀ (t : Tcon) (s : State),
    (∀ a : BusAddr, s.phase = .idle → BoundTo a s →
      exec (.configure t) s = .next { s with
        req := some (configureRequest t), treq := some t,
        cmd := some (0x4#4 ++ 0b00#2 ++ 0b0#1 ++ t.extractLsb' 8 1), dlo := some (t.extractLsb' 0 8),
        phase := .cfgWrWait,
        bus := some (.busWrite a [0x4#4 ++ 0b00#2 ++ 0b0#1 ++ t.extractLsb' 8 1, t.extractLsb' 0 8]),
        issued := s.issued ++
          [.busWrite a [0x4#4 ++ 0b00#2 ++ 0b0#1 ++ t.extractLsb' 8 1, t.extractLsb' 0 8]] }) ∧
    (∀ (e : TErr) (later : List Draw), Completing (configureRequest t) .cfgWrWait (.err e) later s →
      ∃ es, exec (.configure t) s = .next { s with
        bus := none, answers := later,
        rsp := some { status := .transportError, data := 0#16, err := some e }, phase := .resp,
        events := s.events ++ es }) ∧
    (∀ (a : BusAddr) (b0 b1 : Byte) (later : List Draw), BoundTo a s →
      Completing (configureRequest t) .cfgWrWait (.ok b0 b1) later s →
      ∃ es, exec (.configure t) s = .next { s with
        cmd := some 0x4C#8, phase := .cfgRdWait, answers := later,
        bus := some (.busWriteRead a [0x4C#8] 2), issued := s.issued ++ [.busWriteRead a [0x4C#8] 2],
        events := s.events ++ es }) ∧
    (∀ (r0 r1 : Byte) (later : List Draw), s.treq = some t → (r0 ++ r1).extractLsb' 0 9 = t →
      Completing (configureRequest t) .cfgRdWait (.ok r0 r1) later s →
      ∃ es, exec (.configure t) s = .next { s with
        bus := none, answers := later, reply := some (r0 ++ r1),
        rsp := some { status := .ok, data := 0#16, err := none }, phase := .resp,
        events := s.events ++ es }) ∧
    (∀ (r0 r1 : Byte) (later : List Draw), s.treq = some t → (r0 ++ r1).extractLsb' 0 9 ≠ t →
      Completing (configureRequest t) .cfgRdWait (.ok r0 r1) later s →
      ∃ es, exec (.configure t) s = .next { s with
        bus := none, answers := later, reply := some (r0 ++ r1),
        rsp := some { status := .configMismatch, data := 0#16, err := none }, phase := .resp,
        events := s.events ++ es }) ∧
    (∀ (e : TErr) (later : List Draw), Completing (configureRequest t) .cfgRdWait (.err e) later s →
      ∃ es, exec (.configure t) s = .next { s with
        bus := none, answers := later,
        rsp := some { status := .transportError, data := 0#16, err := some e }, phase := .resp,
        events := s.events ++ es }) ∧
    (s.phase = .idle → s.bound = false →
      exec (.configure t) s = .next (refusedWith .refNotBound (configureRequest t) s)) ∧
    (∀ (w : BitVec 32) (later : List (BitVec 32)), s.phase = .idle → Presents w later s →
      (unpackRequest w).opc = 3#3 →
      ((unpackRequest w).reg ≠ 0#4 ∨ (unpackRequest w).rsv ≠ 0#2 ∨ (unpackRequest w).baddr ≠ 0#7 ∨
        (unpackRequest w).data.extractLsb' 9 7 ≠ 0#7) →
      step s = .next (refusedWith .refBadForm (unpackRequest w) { afterUnits s with presented := later }))

/-- SET_WIPER0 (R168): every step, transaction and response of a write to register 0x0, with its own request; a
register can never be wrong.
The outcome is the head of `answers` (log entry 4); the events `es` a completion emits are CompletionsEmitTheirEvents'. -/
def Obligations.SetWiper0WritesRegister0 : Prop :=
  ∀ (v : Value) (s : State),
    (∀ a : BusAddr, s.phase = .idle → BoundTo a s →
      exec (.setWiper0 v) s = .next { s with
        req := some (setWiper0Request v), cmd := some (0x0#4 ++ 0b00#2 ++ v.extractLsb' 8 2),
        dlo := some (v.extractLsb' 0 8), phase := .wrWait,
        bus := some (.busWrite a [0x0#4 ++ 0b00#2 ++ v.extractLsb' 8 2, v.extractLsb' 0 8]),
        issued := s.issued ++ [.busWrite a [0x0#4 ++ 0b00#2 ++ v.extractLsb' 8 2, v.extractLsb' 0 8]] }) ∧
    (∀ (b0 b1 : Byte) (later : List Draw), Completing (setWiper0Request v) .wrWait (.ok b0 b1) later s →
      ∃ es, exec (.setWiper0 v) s = .next { s with
        bus := none, answers := later,
        rsp := some { status := .ok, data := 0#16, err := none }, phase := .resp,
        events := s.events ++ es }) ∧
    (∀ (e : TErr) (later : List Draw), Completing (setWiper0Request v) .wrWait (.err e) later s →
      ∃ es, exec (.setWiper0 v) s = .next { s with
        bus := none, answers := later,
        rsp := some { status := .transportError, data := 0#16, err := some e }, phase := .resp,
        events := s.events ++ es }) ∧
    (s.phase = .idle → s.bound = false →
      exec (.setWiper0 v) s = .next (refusedWith .refNotBound (setWiper0Request v) s)) ∧
    (∀ (w : BitVec 32) (later : List (BitVec 32)), s.phase = .idle → Presents w later s →
      (unpackRequest w).opc = 4#3 →
      ((unpackRequest w).reg ≠ 0#4 ∨ (unpackRequest w).rsv ≠ 0#2 ∨ (unpackRequest w).baddr ≠ 0#7) →
      step s = .next (refusedWith .refBadForm (unpackRequest w) { afterUnits s with presented := later }))

/-- SET_WIPER1 (R169): every step, transaction and response of a write to register 0x1, with its own request.
The outcome is the head of `answers` (log entry 4); the events `es` a completion emits are CompletionsEmitTheirEvents'. -/
def Obligations.SetWiper1WritesRegister1 : Prop :=
  ∀ (v : Value) (s : State),
    (∀ a : BusAddr, s.phase = .idle → BoundTo a s →
      exec (.setWiper1 v) s = .next { s with
        req := some (setWiper1Request v), cmd := some (0x1#4 ++ 0b00#2 ++ v.extractLsb' 8 2),
        dlo := some (v.extractLsb' 0 8), phase := .wrWait,
        bus := some (.busWrite a [0x1#4 ++ 0b00#2 ++ v.extractLsb' 8 2, v.extractLsb' 0 8]),
        issued := s.issued ++ [.busWrite a [0x1#4 ++ 0b00#2 ++ v.extractLsb' 8 2, v.extractLsb' 0 8]] }) ∧
    (∀ (b0 b1 : Byte) (later : List Draw), Completing (setWiper1Request v) .wrWait (.ok b0 b1) later s →
      ∃ es, exec (.setWiper1 v) s = .next { s with
        bus := none, answers := later,
        rsp := some { status := .ok, data := 0#16, err := none }, phase := .resp,
        events := s.events ++ es }) ∧
    (∀ (e : TErr) (later : List Draw), Completing (setWiper1Request v) .wrWait (.err e) later s →
      ∃ es, exec (.setWiper1 v) s = .next { s with
        bus := none, answers := later,
        rsp := some { status := .transportError, data := 0#16, err := some e }, phase := .resp,
        events := s.events ++ es }) ∧
    (s.phase = .idle → s.bound = false →
      exec (.setWiper1 v) s = .next (refusedWith .refNotBound (setWiper1Request v) s)) ∧
    (∀ (w : BitVec 32) (later : List (BitVec 32)), s.phase = .idle → Presents w later s →
      (unpackRequest w).opc = 5#3 →
      ((unpackRequest w).reg ≠ 0#4 ∨ (unpackRequest w).rsv ≠ 0#2 ∨ (unpackRequest w).baddr ≠ 0#7) →
      step s = .next (refusedWith .refBadForm (unpackRequest w) { afterUnits s with presented := later }))

/-- A whole CONFIGURE: three steps after its request is presented to the bound, idle block, with both transactions
completing, it has issued exactly the write frame and then the read frame to `BUSADDR`, and its response is `OK` if
the nine low bits read back are the ones requested and `CONFIG_MISMATCH` if not; the handle is as before. Further
requests may be presented behind it, and words at ENC's and TCU's ports that none of the steps refuses. -/
def Obligations.ConfigureVerifiesWhatItWrote : Prop :=
  ∀ (t : Tcon) (a : BusAddr) (x y r0 r1 : Byte) (draws : List Draw) (w : BitVec 32) (later : List (BitVec 32))
    (s : State),
    Invariant s → s.phase = .idle → BoundTo a s → encode (.configure t) = .req w → Presents w later s →
    (∀ c ∈ s.tcuIn, ¬TcuReserved c) → s.answers = .ok x y :: .ok r0 r1 :: draws →
    ∃ u : State, Reaches 3 s u ∧ u.phase = .resp ∧ BoundTo a u ∧ u.bus = none ∧ u.answers = draws ∧
      u.presented = later ∧
      u.issued = s.issued ++
        [.busWrite a [0x4#4 ++ 0b00#2 ++ 0b0#1 ++ t.extractLsb' 8 1, t.extractLsb' 0 8],
         .busWriteRead a [0x4C#8] 2] ∧
      u.rsp = some
        { status := if (r0 ++ r1).extractLsb' 0 9 = t then .ok else .configMismatch, data := 0#16, err := none }

/-! ### The request and response handshakes -/

/-- While the block is busy a request is held: no step consumes it (R160, R234), and `exec` of a request operation that
is not the one in the block answers the same state. The second clause is a call no step makes, and that the block's
operation is known by its request in `REQ` is the model's own: both are log entry 16. -/
def Obligations.BusyBlockHoldsRequests : Prop :=
  (∀ (w : BitVec 32) (later : List (BitVec 32)) (s t : State),
    Presents w later s → s.phase ≠ .idle → step s = .next t → t.presented = s.presented) ∧
  (∀ (i : Instr) (w : BitVec 32) (s : State),
    encode i = .req w → s.phase ≠ .idle → (s.phase = .resp ∨ s.req ≠ some (unpackRequest w)) →
    exec i s = .next s)

/-- In `RESP`, taking the response returns SEQ to `IDLE`, and the registers of the operation and of the response lose
their values; until it is taken the response is held (R85, R163, R209). That the caller's readiness is a number of
takes is the model's own (log entry 4), and so is that a step while it is not ready answers the same state (log
entry 19). -/
def Obligations.TakingTheResponseReturnsToIdle : Prop :=
  ∀ s : State, SeqTurn s → s.phase = .resp →
    (s.takes = 0 → step s = .next (afterUnits s)) ∧
    (∀ n : Nat, s.takes = n + 1 →
      step s = .next { afterUnits s with
        takes := n, phase := .idle, req := none, cmd := none, dlo := none, treq := none, reply := none,
        rsp := none })

/-- A transport that does not complete leaves the block where it is, for ever: not a fault, and no timeout (R212,
R213). R213 asks for a stuck state that is not final; that an empty `answers` is a transport that does not complete
(log entry 4), and that waiting is a step which changes nothing of SEQ (log entry 19), is the model's own. -/
def Obligations.BlockWaitsForEver : Prop :=
  ∀ (n : Nat) (s : State), Invariant s → s.resetLine = false → (∀ c ∈ s.tcuIn, ¬TcuReserved c) →
    s.phase.isWait = true → s.answers = [] → ∃ t, Reaches n s t ∧ t.withoutUnits = s.withoutUnits

/-- The course of `PHASE`: with the reset line low, every step keeps it or moves it along one of the ways of R164 to
R169, from `IDLE` through at most two wait values to `RESP` and back (R24, R171). -/
def Obligations.PhaseMovesOnlyAsListed : Prop :=
  ∀ s t : State, s.resetLine = false → step s = .next t →
    t.phase = s.phase ∨
    (s.phase, t.phase) ∈ [(Phase.idle, Phase.probeWait), (.idle, .wrWait), (.idle, .rdWait), (.idle, .cfgWrWait),
      (.idle, .resp), (.probeWait, .resp), (.wrWait, .resp), (.rdWait, .resp), (.cfgWrWait, .cfgRdWait),
      (.cfgWrWait, .resp), (.cfgRdWait, .resp), (.resp, .idle)]

/-- Transactions come one at a time, each once (R52, R63, R170): a step issues at most one; it issues one exactly when
it moves into a wait value; it then presents that one on the bus port; and whatever was outstanding before has been
completed by an outcome the step consumed. -/
def Obligations.OneTransactionAtATime : Prop :=
  ∀ s t : State, Invariant s → s.resetLine = false → step s = .next t →
    (t.issued = s.issued ∧ (t.phase = s.phase ∨ t.phase = .resp ∨ t.phase = .idle)) ∨
    (∃ x : Txn, t.issued = s.issued ++ [x] ∧ t.bus = some x ∧ t.phase.isWait = true ∧ t.phase ≠ s.phase ∧
      (s.bus = none ∨ ∃ d, s.answers = d :: t.answers))

/-- Every transaction is addressed to `BUSADDR`, but the probe read of an unbound block, which goes to the address the
PROBE request carries (R23, R50). -/
def Obligations.TransactionsGoToBusaddr : Prop :=
  ∀ (s t : State) (x : Txn), Invariant s → step s = .next t → t.issued = s.issued ++ [x] →
    (s.bound = true ∧ s.busaddr = some x.address) ∨
    (s.bound = false ∧ ∃ a, x = .busRead a 1 ∧ t.req = some (probeRequest a))

/-! ### Invariants and rules of the whole machine -/

/-- The invariant holds after reset. -/
def Obligations.InvariantAtReset : Prop := Invariant State.reset

/-- Every step keeps the invariant: `BUSADDR` has a value exactly when the block is bound, and in each value of `PHASE`
the registers and the bus port hold what the operation in the block has put there (R21 to R29, R164 to R169). -/
def Obligations.InvariantKeptByEveryStep : Prop := ∀ s t : State, Invariant s → step s = .next t → Invariant t

/-- No step faults in a state that satisfies the invariant: no rule reads a register that has no value (R21). -/
def Obligations.NoFaultUnderTheInvariant : Prop := ∀ (s : State) (f : Fault), Invariant s → step s ≠ .fault f

/-- A register without a value is not read: wherever a rule reads a register that can be without one, the machine
faults rather than pick a value (R21). `BUSADDR` is read by the first transaction of WRITE, READ, CONFIGURE and
SET_WIPERn and by CONFIGURE's second; `TREQ` by the comparison; `REQ` by the step of a wait value (log entry 16). `CMD`
and `DLO` are written by the step that reads them. The states violate the invariant. -/
def Obligations.ReadingNoValueFaults : Prop :=
  (∀ (reg : RegAddr) (v : Value) (t : Tcon) (s : State), s.phase = .idle → s.bound = true → s.busaddr = none →
    (Mapped reg → exec (.write reg v) s = .fault (.noValue .busaddr)) ∧
    (Mapped reg → exec (.read reg) s = .fault (.noValue .busaddr)) ∧
    exec (.configure t) s = .fault (.noValue .busaddr) ∧
    exec (.setWiper0 v) s = .fault (.noValue .busaddr) ∧
    exec (.setWiper1 v) s = .fault (.noValue .busaddr)) ∧
  (∀ (t : Tcon) (b0 b1 : Byte) (later : List Draw) (s : State), s.busaddr = none →
    Completing (configureRequest t) .cfgWrWait (.ok b0 b1) later s →
    exec (.configure t) s = .fault (.noValue .busaddr)) ∧
  (∀ (t : Tcon) (r0 r1 : Byte) (later : List Draw) (s : State), s.treq = none →
    Completing (configureRequest t) .cfgRdWait (.ok r0 r1) later s →
    exec (.configure t) s = .fault (.noValue .treq)) ∧
  (∀ s : State, SeqTurn s → s.phase.isWait = true → s.req = none → step s = .fault (.noValue .req))

/-- The handle (R22, R23): `BOUND` and `BUSADDR` change only by reset, which clears them, and by the completion with
`Ok` of a PROBE, which binds the unbound block to the address that PROBE carried. -/
def Obligations.OnlyProbeAndResetWriteTheHandle : Prop :=
  State.reset.bound = false ∧ State.reset.busaddr = none ∧ ∀ s t : State, Invariant s → step s = .next t →
    (s.resetLine = true ∧ t.bound = false ∧ t.busaddr = none) ∨
    (t.bound = s.bound ∧ t.busaddr = s.busaddr) ∨
    (s.bound = false ∧ s.phase = .probeWait ∧ ∃ (a : BusAddr) (b0 b1 : Byte) (later : List Draw),
      s.req = some (probeRequest a) ∧ s.answers = .ok b0 b1 :: later ∧ t.bound = true ∧ t.busaddr = some a ∧
      t.rsp = some { status := .ok, data := 0#16, err := none })

/-- Every transaction ever issued is a one-byte probe read, a two-byte write frame or a one-byte read frame with two
bytes back, of a mapped register; so no Increment or Decrement is ever sent (R58, R62, R89). Every step keeps this. -/
def Obligations.OnlyLegalTransactionsAreIssued : Prop :=
  IssuedLegal State.reset ∧ ∀ s t : State, IssuedLegal s → step s = .next t → IssuedLegal t

/-- A response that reports a failure or a refusal carries only its status, and the transport's payload in the one
case of a transport failure; it is the end of its operation (R205). -/
def Obligations.FailureReportsNothingElse : Prop :=
  ∀ (s t : State) (p : Response), Invariant s → step s = .next t → t.rsp = some p → p.status ≠ .ok →
    p.data = 0#16 ∧ (p.err.isSome = true ↔ p.status = .transportError) ∧ t.phase = .resp ∧ t.bus = none

/-- The transport's error payload is carried and not inspected (R5, R201): rename the payloads wherever they stand, in
outcomes, in the response and in events, by any function whatever, and every step does the same with the renamed
ones. -/
def Obligations.ErrorPayloadIsNotInspected : Prop :=
  ∀ (f : TErr → TErr) (s : State),
    step (s.mapErr f) =
      match step s with
      | .next t => .next (t.mapErr f)
      | .fault g => .fault g
      | .refused q => .refused q

/-- The transport's error payload reaches the caller verbatim, whichever operation met it, and ends that operation
with no further transaction (R201). -/
def Obligations.TransportErrorIsVerbatim : Prop :=
  ∀ (s : State) (e : TErr) (later : List Draw), Invariant s → SeqTurn s → s.phase.isWait = true →
    s.answers = .err e :: later →
    ∃ t : State, step s = .next t ∧ t.phase = .resp ∧ t.issued = s.issued ∧ t.bus = none ∧ t.bound = s.bound ∧
      t.busaddr = s.busaddr ∧ t.rsp = some { status := .transportError, data := 0#16, err := some e }

/-- The status codes of R86; 0b011 is the code of none, and no two share a code. -/
def Obligations.StatusCodesAreAsListed : Prop :=
  statusCode .ok = 0b000#3 ∧ statusCode .transportError = 0b001#3 ∧ statusCode .configMismatch = 0b010#3 ∧
  statusCode .refNotBound = 0b100#3 ∧ statusCode .refAlreadyBound = 0b101#3 ∧ statusCode .refBadRegister = 0b110#3 ∧
  statusCode .refBadForm = 0b111#3 ∧ (∀ x, statusCode x ≠ 0b011#3) ∧
  (∀ x y, statusCode x = statusCode y → x = y)

/-- The error predicates tell the two error kinds from everything else (R216). -/
def Obligations.ErrorPredicatesReadTheStatus : Prop :=
  ∀ p : Response, (isTransportError p = true ↔ p.status = .transportError) ∧
    (isConfigMismatch p = true ↔ p.status = .configMismatch)

/-! ### Diagnostics -/

/-- Nothing but the event port depends on whether a sink is attached or on the events emitted before (R215): two
states that differ in these alone step to the same fault, the same refusal, or states that differ in these alone. -/
def Obligations.DiagnosticsDoNotInterfere : Prop :=
  ∀ s t : State, s.withoutDiagnostics = t.withoutDiagnostics →
    match step s, step t with
    | .next s', .next t' => s'.withoutDiagnostics = t'.withoutDiagnostics
    | .fault f, .fault g => f = g
    | .refused r, .refused q => r = q
    | _, _ => False

/-- The events of R215, as the model reads their fields and order (log entry 13): each completion emits exactly those
listed, if a sink is attached. -/
def Obligations.CompletionsEmitTheirEvents : Prop :=
  (∀ (a : BusAddr) (d : Draw) (later : List Draw) (s : State), Completing (probeRequest a) .probeWait d later s →
    ∃ t, exec (.probe a) s = .next t ∧ t.events = eventsWith [.probeResult a d.failure] s) ∧
  (∀ (reg : RegAddr) (v : Value) (d : Draw) (later : List Draw) (s : State),
    Completing (writeRequest reg v) .wrWait d later s →
    ∃ t, exec (.write reg v) s = .next t ∧ t.events = eventsWith [.writeResult reg v d.failure] s) ∧
  (∀ (v : Value) (d : Draw) (later : List Draw) (s : State), Completing (setWiper0Request v) .wrWait d later s →
    ∃ t, exec (.setWiper0 v) s = .next t ∧ t.events = eventsWith [.writeResult 0x0#4 v d.failure] s) ∧
  (∀ (v : Value) (d : Draw) (later : List Draw) (s : State), Completing (setWiper1Request v) .wrWait d later s →
    ∃ t, exec (.setWiper1 v) s = .next t ∧ t.events = eventsWith [.writeResult 0x1#4 v d.failure] s) ∧
  (∀ (reg : RegAddr) (d : Draw) (later : List Draw) (s : State), Completing (readRequest reg) .rdWait d later s →
    ∃ t, exec (.read reg) s = .next t ∧ t.events = eventsWith [.readResult reg d.report] s) ∧
  (∀ (c : Tcon) (a : BusAddr) (d : Draw) (later : List Draw) (s : State), BoundTo a s →
    Completing (configureRequest c) .cfgWrWait d later s →
    ∃ t, exec (.configure c) s = .next t ∧ t.events = eventsWith [.writeResult 0x4#4 (0#7 ++ c) d.failure] s) ∧
  (∀ (c : Tcon) (d : Draw) (later : List Draw) (s : State), s.treq = some c →
    Completing (configureRequest c) .cfgRdWait d later s →
    ∃ t, exec (.configure c) s = .next t ∧
      t.events = eventsWith
        (match d with
          | .err e => [.readResult 0x4#4 (.error e)]
          | .ok r0 r1 =>
            if (r0 ++ r1).extractLsb' 0 9 = c then [.readResult 0x4#4 (.reply (r0 ++ r1))]
            else [.readResult 0x4#4 (.reply (r0 ++ r1)), .mismatch c ((r0 ++ r1).extractLsb' 0 9)]) s)

/-- The event port is write-only: with a sink attached every step only adds events, without one none is emitted (R215).
Whether a sink is attached is the parameter `DIAG_PRESENT` (R5). The model's own: that the parameter is a field of State
which no step changes (log entry 8), and that the port is a list of the events emitted so far (log entry 13). -/
def Obligations.EventPortIsWriteOnly : Prop :=
  ∀ s t : State, step s = .next t →
    t.diagPresent = s.diagPresent ∧ (∃ es, t.events = s.events ++ es) ∧
      (s.diagPresent = false → t.events = s.events)

/-! ### Reset -/

/-- Reset (R230): `BOUND` is 0, `PHASE` is `IDLE`, and no other register has a value. -/
def Obligations.ResetStateIsAsStated : Prop :=
  State.reset.bound = false ∧ State.reset.phase = .idle ∧ State.reset.busaddr = none ∧ State.reset.req = none ∧
  State.reset.cmd = none ∧ State.reset.dlo = none ∧ State.reset.treq = none ∧ State.reset.reply = none ∧
  State.reset.rsp = none

/-- A reset in any state, a transaction outstanding or not, gives every register its reset value, abandons the
transaction without a response and issues nothing (R230, R231). That the traces and the other inputs stay, and that ENC
and TCU answer during the step of a reset as in any other, is the model's own (log entries 4 to 7). -/
def Obligations.ResetAbandonsTheOperation : Prop :=
  ∀ s : State, s.resetLine = true → TcuPortOk s →
    ∃ t : State, step s = .next t ∧ SameRegisters State.reset t ∧ t.bus = none ∧ t.resetLine = false ∧
      t.issued = s.issued ∧ t.events = s.events ∧ t.presented = s.presented ∧ t.answers = s.answers ∧
      t.takes = s.takes
end

