-- ==== Sys2Proof/Laws/Encoding.lean ====
section
/-! SUPPORT. Laws/Encoding.lean: the small lemmas of the decoder, the encoder and ENC: fields of packed words, the
decoding of each request record, and ENC's masking form against the concatenation of R70. -/

namespace Sys2Proof

/-! ### Request words -/

/-- The fields of five concatenated vectors of the request word's widths. -/
theorem requestFields (opc : BitVec 3) (reg : BitVec 4) (rsv : BitVec 2) (baddr : BitVec 7) (data : BitVec 16) :
    (opc ++ reg ++ rsv ++ baddr ++ data).extractLsb' 29 3 = opc ∧
    (opc ++ reg ++ rsv ++ baddr ++ data).extractLsb' 25 4 = reg ∧
    (opc ++ reg ++ rsv ++ baddr ++ data).extractLsb' 23 2 = rsv ∧
    (opc ++ reg ++ rsv ++ baddr ++ data).extractLsb' 16 7 = baddr ∧
    (opc ++ reg ++ rsv ++ baddr ++ data).extractLsb' 0 16 = data := by
  refine ⟨?_, ?_, ?_, ?_, BitVec.extractLsb'_append_eq_right⟩ <;>
    simp (disch := omega) only [BitVec.extractLsb'_append_eq_of_le, Nat.reduceSub] <;>
    first | exact BitVec.extractLsb'_append_eq_right | exact BitVec.extractLsb'_eq_self

/-- The fields of a request word, side by side, are the word. -/
theorem requestWord (w : BitVec 32) :
    w.extractLsb' 29 3 ++ w.extractLsb' 25 4 ++ w.extractLsb' 23 2 ++ w.extractLsb' 16 7 ++ w.extractLsb' 0 16 = w := by
  rw [BitVec.extractLsb'_append_extractLsb'_eq_extractLsb' (start₁ := 25) (by rfl),
    BitVec.extractLsb'_append_extractLsb'_eq_extractLsb' (start₁ := 23) (by rfl),
    BitVec.extractLsb'_append_extractLsb'_eq_extractLsb' (start₁ := 16) (by rfl),
    BitVec.extractLsb'_append_extractLsb'_eq_extractLsb' (start₁ := 0) (by rfl)]
  exact BitVec.extractLsb'_eq_self

@[simp] theorem unpackRequest_packRequest (r : Request) : unpackRequest (packRequest r) = r := by
  obtain ⟨opc, reg, rsv, baddr, data⟩ := r
  obtain ⟨h1, h2, h3, h4, h5⟩ := requestFields opc reg rsv baddr data
  exact Request.mk.injEq .. ▸ ⟨h1, h2, h3, h4, h5⟩

@[simp] theorem packRequest_unpackRequest (w : BitVec 32) : packRequest (unpackRequest w) = w := requestWord w

@[simp] theorem decodeRequest_probe (a : BusAddr) : decodeRequest (probeRequest a) = .ok (.probe a) := rfl

@[simp] theorem decodeRequest_write (reg : RegAddr) (v : Value) :
    decodeRequest (writeRequest reg v) = .ok (.write reg v) := rfl

@[simp] theorem decodeRequest_read (reg : RegAddr) : decodeRequest (readRequest reg) = .ok (.read reg) := rfl

@[simp] theorem decodeRequest_setWiper0 (v : Value) :
    decodeRequest (setWiper0Request v) = .ok (.setWiper0 v) := rfl

@[simp] theorem decodeRequest_setWiper1 (v : Value) :
    decodeRequest (setWiper1Request v) = .ok (.setWiper1 v) := rfl

@[simp] theorem dataTcon_zeroExtended (t : Tcon) : dataTcon (0#7 ++ t) = t := by
  exact BitVec.extractLsb'_append_eq_right

@[simp] theorem dataAboveTcon_zeroExtended (t : Tcon) : dataAboveTcon (0#7 ++ t) = 0#7 := by
  exact BitVec.extractLsb'_append_eq_left

@[simp] theorem decodeRequest_configure (t : Tcon) :
    decodeRequest (configureRequest t) = .ok (.configure t) := by
  simp [decodeRequest, operationOf, unusedFieldsZero, configureRequest]

/-! ### Command bytes -/

@[simp] theorem opOfCode_opCode (op : CmdOp) : opOfCode (opCode op) = op := by cases op <;> rfl

@[simp] theorem opCode_opOfCode (c : BitVec 2) : opCode (opOfCode c) = c := by
  revert c; decide

theorem opCode_injective {op op' : CmdOp} (h : opCode op = opCode op') : op = op' := by
  have := congrArg opOfCode h; simpa using this

/-- The fields of three concatenated vectors of the command byte's widths. -/
theorem commandFields (x : BitVec 4) (y z : BitVec 2) :
    (x ++ y ++ z).extractLsb' 4 4 = x ∧ (x ++ y ++ z).extractLsb' 2 2 = y ∧ (x ++ y ++ z).extractLsb' 0 2 = z := by
  refine ⟨?_, ?_, BitVec.extractLsb'_append_eq_right⟩ <;>
    simp (disch := omega) only [BitVec.extractLsb'_append_eq_of_le, Nat.reduceSub] <;>
    first | exact BitVec.extractLsb'_append_eq_right | exact BitVec.extractLsb'_eq_self

@[simp] theorem cmdAddr_append (x : BitVec 4) (y z : BitVec 2) : cmdAddr (x ++ y ++ z) = x := (commandFields x y z).1

@[simp] theorem cmdOpBits_append (x : BitVec 4) (y z : BitVec 2) : cmdOpBits (x ++ y ++ z) = y :=
  (commandFields x y z).2.1

@[simp] theorem cmdMsb_append (x : BitVec 4) (y z : BitVec 2) : cmdMsb (x ++ y ++ z) = z := (commandFields x y z).2.2

/-- A byte is its three fields side by side. -/
theorem byte_eq_fields (b : BitVec 8) : b.extractLsb' 4 4 ++ b.extractLsb' 2 2 ++ b.extractLsb' 0 2 = b := by
  rw [BitVec.extractLsb'_append_extractLsb'_eq_extractLsb' (start₁ := 2) (by rfl),
    BitVec.extractLsb'_append_extractLsb'_eq_extractLsb' (start₁ := 0) (by rfl)]
  exact BitVec.extractLsb'_eq_self

@[simp] theorem decodeCmd_append (x : BitVec 4) (op : CmdOp) (z : BitVec 2) :
    decodeCmd (x ++ opCode op ++ z) = commandOf op x.toNat z.toNat := by
  simp [decodeCmd]

namespace Machine

/-- ENC's mask-and-shift form (R100) is the concatenation of R70. -/
theorem enc_eq_append (a : Nat) (op : CmdOp) (m : Nat) :
    enc a op m = BitVec.ofNat 4 a ++ opCode op ++ BitVec.ofNat 2 m := by
  have h (x : Fin 16) (y : Fin 4) : BitVec.ofNat 8 ((x.val <<< 4) ||| (((opCode op).toNat &&& 0b11) <<< 2) ||| y.val) =
      BitVec.ofNat 4 x.val ++ opCode op ++ BitVec.ofNat 2 y.val := by
    revert x y; cases op <;> decide
  have ha : a &&& 0xF = a % 16 := Nat.and_two_pow_sub_one_eq_mod a 4
  have hm : m &&& 0b11 = m % 4 := Nat.and_two_pow_sub_one_eq_mod m 2
  have hA : BitVec.ofNat 4 (a % 16) = BitVec.ofNat 4 a := by
    apply BitVec.eq_of_toNat_eq; simp
  have hM : BitVec.ofNat 2 (m % 4) = BitVec.ofNat 2 m := by
    apply BitVec.eq_of_toNat_eq; simp
  have := h ⟨a % 16, Nat.mod_lt _ (by decide)⟩ ⟨m % 4, Nat.mod_lt _ (by decide)⟩
  simp only [hA, hM] at this
  rw [enc, ha, hm, this]

/-- ENC is the encoder of the command instruction. -/
theorem enc_eq_encodeCmd (a : Nat) (op : CmdOp) (m : Nat) : enc a op m = encodeCmd op a m := enc_eq_append a op m

theorem writeCommand_eq (a : RegAddr) (v : Value) : writeCommand a v = a ++ 0b00#2 ++ v.extractLsb' 8 2 := by
  rw [writeCommand, enc_eq_append, BitVec.ofNat_toNat, BitVec.ofNat_toNat, BitVec.setWidth_eq, BitVec.setWidth_eq]
  rfl

theorem readCommand_eq (a : RegAddr) : readCommand a = a ++ 0b11#2 ++ 0b00#2 := by
  simp [readCommand, enc_eq_append, opCode]

theorem reasm_eq_append (r0 r1 : Byte) : reasm r0 r1 = r0 ++ r1 := by
  simp only [reasm]
  apply BitVec.eq_of_getLsbD_eq
  intro i hi
  simp only [BitVec.getLsbD_or, BitVec.getLsbD_shiftLeft, BitVec.getLsbD_setWidth, BitVec.getLsbD_append]
  by_cases h : i < 8
  · simp [h, show i < 16 by omega]
  · have : r1.getLsbD i = false := BitVec.getLsbD_of_ge _ _ (by omega)
    simp [h, this, hi, show i - 8 < 16 by omega]

@[simp] theorem tconFromRaw_append (high : BitVec 7) (t : Tcon) : tconFromRaw (high ++ t) = t := by
  exact BitVec.extractLsb'_append_eq_right

theorem tconToRaw_eq_append (t : Tcon) : tconToRaw t = 0#7 ++ t :=
  BitVec.setWidth_eq_append (by decide)

end Machine

end Sys2Proof

namespace Sys2Proof

/-! ### What a request that decodes is -/

/-- A nine-bit value above which a 16-bit value is zero is all of it. -/
theorem zeroExtended_dataTcon (v : Value) (h : dataAboveTcon v = 0#7) : 0#7 ++ dataTcon v = v := by
  rw [← h]
  simp only [dataAboveTcon, dataTcon]
  rw [BitVec.extractLsb'_append_extractLsb'_eq_extractLsb' (start₁ := 0) (by rfl)]
  exact BitVec.extractLsb'_eq_self

/-- Case split over the eight values of `opc`. -/
theorem opc_cases (x : BitVec 3) :
    x = 0#3 ∨ x = 1#3 ∨ x = 2#3 ∨ x = 3#3 ∨ x = 4#3 ∨ x = 5#3 ∨ x = 6#3 ∨ x = 7#3 := by
  revert x; decide

/-- A request that decodes is the request record of the instruction it decodes to. -/
theorem decodeRequest_ok {r : Request} {i : Instr} (h : decodeRequest r = .ok i) :
    (∃ a, i = .probe a ∧ r = probeRequest a) ∨ (∃ reg v, i = .write reg v ∧ r = writeRequest reg v) ∨
    (∃ reg, i = .read reg ∧ r = readRequest reg) ∨ (∃ t, i = .configure t ∧ r = configureRequest t) ∨
    (∃ v, i = .setWiper0 v ∧ r = setWiper0Request v) ∨ (∃ v, i = .setWiper1 v ∧ r = setWiper1Request v) := by
  obtain ⟨opc, reg, rsv, baddr, data⟩ := r
  rcases opc_cases opc with rfl | rfl | rfl | rfl | rfl | rfl | rfl | rfl <;>
    simp [decodeRequest, operationOf, unusedFieldsZero, probeRequest, writeRequest, readRequest, configureRequest,
      setWiper0Request, setWiper1Request] at h ⊢
  all_goals split at h <;> cases h
  · next hz => obtain ⟨⟨rfl, rfl⟩, rfl⟩ := hz; simp
  · next hz => obtain ⟨rfl, rfl⟩ := hz; simp
  · next hz => obtain ⟨⟨rfl, rfl⟩, rfl⟩ := hz; simp
  · next hz =>
    obtain ⟨⟨⟨rfl, rfl⟩, rfl⟩, hd⟩ := hz
    simp [zeroExtended_dataTcon data hd]
  · next hz => obtain ⟨⟨rfl, rfl⟩, rfl⟩ := hz; simp
  · next hz => obtain ⟨⟨rfl, rfl⟩, rfl⟩ := hz; simp

end Sys2Proof
end

