-- ==== Sys2Proof/Laws/State.lean ====
section
/-! SUPPORT. Laws/State.lean: what each shared state update of Machine/Ops.lean leaves in each field, so that no proof
unfolds a record update. -/

namespace Sys2Proof.Machine

/-! ### setReq -/

@[simp] theorem setReq_bound (r : Request) (s : State) : (setReq r s).bound = s.bound := rfl
@[simp] theorem setReq_busaddr (r : Request) (s : State) : (setReq r s).busaddr = s.busaddr := rfl
@[simp] theorem setReq_phase (r : Request) (s : State) : (setReq r s).phase = s.phase := rfl
@[simp] theorem setReq_req (r : Request) (s : State) : (setReq r s).req = some r := rfl
@[simp] theorem setReq_cmd (r : Request) (s : State) : (setReq r s).cmd = s.cmd := rfl
@[simp] theorem setReq_dlo (r : Request) (s : State) : (setReq r s).dlo = s.dlo := rfl
@[simp] theorem setReq_treq (r : Request) (s : State) : (setReq r s).treq = s.treq := rfl
@[simp] theorem setReq_reply (r : Request) (s : State) : (setReq r s).reply = s.reply := rfl
@[simp] theorem setReq_rsp (r : Request) (s : State) : (setReq r s).rsp = s.rsp := rfl
@[simp] theorem setReq_bus (r : Request) (s : State) : (setReq r s).bus = s.bus := rfl
@[simp] theorem setReq_issued (r : Request) (s : State) : (setReq r s).issued = s.issued := rfl
@[simp] theorem setReq_events (r : Request) (s : State) : (setReq r s).events = s.events := rfl
@[simp] theorem setReq_encOut (r : Request) (s : State) : (setReq r s).encOut = s.encOut := rfl
@[simp] theorem setReq_tcuOut (r : Request) (s : State) : (setReq r s).tcuOut = s.tcuOut := rfl
@[simp] theorem setReq_encIn (r : Request) (s : State) : (setReq r s).encIn = s.encIn := rfl
@[simp] theorem setReq_tcuIn (r : Request) (s : State) : (setReq r s).tcuIn = s.tcuIn := rfl
@[simp] theorem setReq_presented (r : Request) (s : State) : (setReq r s).presented = s.presented := rfl
@[simp] theorem setReq_answers (r : Request) (s : State) : (setReq r s).answers = s.answers := rfl
@[simp] theorem setReq_takes (r : Request) (s : State) : (setReq r s).takes = s.takes := rfl
@[simp] theorem setReq_resetLine (r : Request) (s : State) : (setReq r s).resetLine = s.resetLine := rfl
@[simp] theorem setReq_diagPresent (r : Request) (s : State) : (setReq r s).diagPresent = s.diagPresent := rfl

/-! ### setCmd -/

@[simp] theorem setCmd_bound (c : Byte) (s : State) : (setCmd c s).bound = s.bound := rfl
@[simp] theorem setCmd_busaddr (c : Byte) (s : State) : (setCmd c s).busaddr = s.busaddr := rfl
@[simp] theorem setCmd_phase (c : Byte) (s : State) : (setCmd c s).phase = s.phase := rfl
@[simp] theorem setCmd_req (c : Byte) (s : State) : (setCmd c s).req = s.req := rfl
@[simp] theorem setCmd_cmd (c : Byte) (s : State) : (setCmd c s).cmd = some c := rfl
@[simp] theorem setCmd_dlo (c : Byte) (s : State) : (setCmd c s).dlo = s.dlo := rfl
@[simp] theorem setCmd_treq (c : Byte) (s : State) : (setCmd c s).treq = s.treq := rfl
@[simp] theorem setCmd_reply (c : Byte) (s : State) : (setCmd c s).reply = s.reply := rfl
@[simp] theorem setCmd_rsp (c : Byte) (s : State) : (setCmd c s).rsp = s.rsp := rfl
@[simp] theorem setCmd_bus (c : Byte) (s : State) : (setCmd c s).bus = s.bus := rfl
@[simp] theorem setCmd_issued (c : Byte) (s : State) : (setCmd c s).issued = s.issued := rfl
@[simp] theorem setCmd_events (c : Byte) (s : State) : (setCmd c s).events = s.events := rfl
@[simp] theorem setCmd_encOut (c : Byte) (s : State) : (setCmd c s).encOut = s.encOut := rfl
@[simp] theorem setCmd_tcuOut (c : Byte) (s : State) : (setCmd c s).tcuOut = s.tcuOut := rfl
@[simp] theorem setCmd_encIn (c : Byte) (s : State) : (setCmd c s).encIn = s.encIn := rfl
@[simp] theorem setCmd_tcuIn (c : Byte) (s : State) : (setCmd c s).tcuIn = s.tcuIn := rfl
@[simp] theorem setCmd_presented (c : Byte) (s : State) : (setCmd c s).presented = s.presented := rfl
@[simp] theorem setCmd_answers (c : Byte) (s : State) : (setCmd c s).answers = s.answers := rfl
@[simp] theorem setCmd_takes (c : Byte) (s : State) : (setCmd c s).takes = s.takes := rfl
@[simp] theorem setCmd_resetLine (c : Byte) (s : State) : (setCmd c s).resetLine = s.resetLine := rfl
@[simp] theorem setCmd_diagPresent (c : Byte) (s : State) : (setCmd c s).diagPresent = s.diagPresent := rfl

/-! ### setDlo -/

@[simp] theorem setDlo_bound (d : Byte) (s : State) : (setDlo d s).bound = s.bound := rfl
@[simp] theorem setDlo_busaddr (d : Byte) (s : State) : (setDlo d s).busaddr = s.busaddr := rfl
@[simp] theorem setDlo_phase (d : Byte) (s : State) : (setDlo d s).phase = s.phase := rfl
@[simp] theorem setDlo_req (d : Byte) (s : State) : (setDlo d s).req = s.req := rfl
@[simp] theorem setDlo_cmd (d : Byte) (s : State) : (setDlo d s).cmd = s.cmd := rfl
@[simp] theorem setDlo_dlo (d : Byte) (s : State) : (setDlo d s).dlo = some d := rfl
@[simp] theorem setDlo_treq (d : Byte) (s : State) : (setDlo d s).treq = s.treq := rfl
@[simp] theorem setDlo_reply (d : Byte) (s : State) : (setDlo d s).reply = s.reply := rfl
@[simp] theorem setDlo_rsp (d : Byte) (s : State) : (setDlo d s).rsp = s.rsp := rfl
@[simp] theorem setDlo_bus (d : Byte) (s : State) : (setDlo d s).bus = s.bus := rfl
@[simp] theorem setDlo_issued (d : Byte) (s : State) : (setDlo d s).issued = s.issued := rfl
@[simp] theorem setDlo_events (d : Byte) (s : State) : (setDlo d s).events = s.events := rfl
@[simp] theorem setDlo_encOut (d : Byte) (s : State) : (setDlo d s).encOut = s.encOut := rfl
@[simp] theorem setDlo_tcuOut (d : Byte) (s : State) : (setDlo d s).tcuOut = s.tcuOut := rfl
@[simp] theorem setDlo_encIn (d : Byte) (s : State) : (setDlo d s).encIn = s.encIn := rfl
@[simp] theorem setDlo_tcuIn (d : Byte) (s : State) : (setDlo d s).tcuIn = s.tcuIn := rfl
@[simp] theorem setDlo_presented (d : Byte) (s : State) : (setDlo d s).presented = s.presented := rfl
@[simp] theorem setDlo_answers (d : Byte) (s : State) : (setDlo d s).answers = s.answers := rfl
@[simp] theorem setDlo_takes (d : Byte) (s : State) : (setDlo d s).takes = s.takes := rfl
@[simp] theorem setDlo_resetLine (d : Byte) (s : State) : (setDlo d s).resetLine = s.resetLine := rfl
@[simp] theorem setDlo_diagPresent (d : Byte) (s : State) : (setDlo d s).diagPresent = s.diagPresent := rfl

/-! ### setTreq -/

@[simp] theorem setTreq_bound (t : Tcon) (s : State) : (setTreq t s).bound = s.bound := rfl
@[simp] theorem setTreq_busaddr (t : Tcon) (s : State) : (setTreq t s).busaddr = s.busaddr := rfl
@[simp] theorem setTreq_phase (t : Tcon) (s : State) : (setTreq t s).phase = s.phase := rfl
@[simp] theorem setTreq_req (t : Tcon) (s : State) : (setTreq t s).req = s.req := rfl
@[simp] theorem setTreq_cmd (t : Tcon) (s : State) : (setTreq t s).cmd = s.cmd := rfl
@[simp] theorem setTreq_dlo (t : Tcon) (s : State) : (setTreq t s).dlo = s.dlo := rfl
@[simp] theorem setTreq_treq (t : Tcon) (s : State) : (setTreq t s).treq = some t := rfl
@[simp] theorem setTreq_reply (t : Tcon) (s : State) : (setTreq t s).reply = s.reply := rfl
@[simp] theorem setTreq_rsp (t : Tcon) (s : State) : (setTreq t s).rsp = s.rsp := rfl
@[simp] theorem setTreq_bus (t : Tcon) (s : State) : (setTreq t s).bus = s.bus := rfl
@[simp] theorem setTreq_issued (t : Tcon) (s : State) : (setTreq t s).issued = s.issued := rfl
@[simp] theorem setTreq_events (t : Tcon) (s : State) : (setTreq t s).events = s.events := rfl
@[simp] theorem setTreq_encOut (t : Tcon) (s : State) : (setTreq t s).encOut = s.encOut := rfl
@[simp] theorem setTreq_tcuOut (t : Tcon) (s : State) : (setTreq t s).tcuOut = s.tcuOut := rfl
@[simp] theorem setTreq_encIn (t : Tcon) (s : State) : (setTreq t s).encIn = s.encIn := rfl
@[simp] theorem setTreq_tcuIn (t : Tcon) (s : State) : (setTreq t s).tcuIn = s.tcuIn := rfl
@[simp] theorem setTreq_presented (t : Tcon) (s : State) : (setTreq t s).presented = s.presented := rfl
@[simp] theorem setTreq_answers (t : Tcon) (s : State) : (setTreq t s).answers = s.answers := rfl
@[simp] theorem setTreq_takes (t : Tcon) (s : State) : (setTreq t s).takes = s.takes := rfl
@[simp] theorem setTreq_resetLine (t : Tcon) (s : State) : (setTreq t s).resetLine = s.resetLine := rfl
@[simp] theorem setTreq_diagPresent (t : Tcon) (s : State) : (setTreq t s).diagPresent = s.diagPresent := rfl

/-! ### setReply -/

@[simp] theorem setReply_bound (v : Value) (s : State) : (setReply v s).bound = s.bound := rfl
@[simp] theorem setReply_busaddr (v : Value) (s : State) : (setReply v s).busaddr = s.busaddr := rfl
@[simp] theorem setReply_phase (v : Value) (s : State) : (setReply v s).phase = s.phase := rfl
@[simp] theorem setReply_req (v : Value) (s : State) : (setReply v s).req = s.req := rfl
@[simp] theorem setReply_cmd (v : Value) (s : State) : (setReply v s).cmd = s.cmd := rfl
@[simp] theorem setReply_dlo (v : Value) (s : State) : (setReply v s).dlo = s.dlo := rfl
@[simp] theorem setReply_treq (v : Value) (s : State) : (setReply v s).treq = s.treq := rfl
@[simp] theorem setReply_reply (v : Value) (s : State) : (setReply v s).reply = some v := rfl
@[simp] theorem setReply_rsp (v : Value) (s : State) : (setReply v s).rsp = s.rsp := rfl
@[simp] theorem setReply_bus (v : Value) (s : State) : (setReply v s).bus = s.bus := rfl
@[simp] theorem setReply_issued (v : Value) (s : State) : (setReply v s).issued = s.issued := rfl
@[simp] theorem setReply_events (v : Value) (s : State) : (setReply v s).events = s.events := rfl
@[simp] theorem setReply_encOut (v : Value) (s : State) : (setReply v s).encOut = s.encOut := rfl
@[simp] theorem setReply_tcuOut (v : Value) (s : State) : (setReply v s).tcuOut = s.tcuOut := rfl
@[simp] theorem setReply_encIn (v : Value) (s : State) : (setReply v s).encIn = s.encIn := rfl
@[simp] theorem setReply_tcuIn (v : Value) (s : State) : (setReply v s).tcuIn = s.tcuIn := rfl
@[simp] theorem setReply_presented (v : Value) (s : State) : (setReply v s).presented = s.presented := rfl
@[simp] theorem setReply_answers (v : Value) (s : State) : (setReply v s).answers = s.answers := rfl
@[simp] theorem setReply_takes (v : Value) (s : State) : (setReply v s).takes = s.takes := rfl
@[simp] theorem setReply_resetLine (v : Value) (s : State) : (setReply v s).resetLine = s.resetLine := rfl
@[simp] theorem setReply_diagPresent (v : Value) (s : State) : (setReply v s).diagPresent = s.diagPresent := rfl

/-! ### bindTo -/

@[simp] theorem bindTo_bound (a : BusAddr) (s : State) : (bindTo a s).bound = true := rfl
@[simp] theorem bindTo_busaddr (a : BusAddr) (s : State) : (bindTo a s).busaddr = some a := rfl
@[simp] theorem bindTo_phase (a : BusAddr) (s : State) : (bindTo a s).phase = s.phase := rfl
@[simp] theorem bindTo_req (a : BusAddr) (s : State) : (bindTo a s).req = s.req := rfl
@[simp] theorem bindTo_cmd (a : BusAddr) (s : State) : (bindTo a s).cmd = s.cmd := rfl
@[simp] theorem bindTo_dlo (a : BusAddr) (s : State) : (bindTo a s).dlo = s.dlo := rfl
@[simp] theorem bindTo_treq (a : BusAddr) (s : State) : (bindTo a s).treq = s.treq := rfl
@[simp] theorem bindTo_reply (a : BusAddr) (s : State) : (bindTo a s).reply = s.reply := rfl
@[simp] theorem bindTo_rsp (a : BusAddr) (s : State) : (bindTo a s).rsp = s.rsp := rfl
@[simp] theorem bindTo_bus (a : BusAddr) (s : State) : (bindTo a s).bus = s.bus := rfl
@[simp] theorem bindTo_issued (a : BusAddr) (s : State) : (bindTo a s).issued = s.issued := rfl
@[simp] theorem bindTo_events (a : BusAddr) (s : State) : (bindTo a s).events = s.events := rfl
@[simp] theorem bindTo_encOut (a : BusAddr) (s : State) : (bindTo a s).encOut = s.encOut := rfl
@[simp] theorem bindTo_tcuOut (a : BusAddr) (s : State) : (bindTo a s).tcuOut = s.tcuOut := rfl
@[simp] theorem bindTo_encIn (a : BusAddr) (s : State) : (bindTo a s).encIn = s.encIn := rfl
@[simp] theorem bindTo_tcuIn (a : BusAddr) (s : State) : (bindTo a s).tcuIn = s.tcuIn := rfl
@[simp] theorem bindTo_presented (a : BusAddr) (s : State) : (bindTo a s).presented = s.presented := rfl
@[simp] theorem bindTo_answers (a : BusAddr) (s : State) : (bindTo a s).answers = s.answers := rfl
@[simp] theorem bindTo_takes (a : BusAddr) (s : State) : (bindTo a s).takes = s.takes := rfl
@[simp] theorem bindTo_resetLine (a : BusAddr) (s : State) : (bindTo a s).resetLine = s.resetLine := rfl
@[simp] theorem bindTo_diagPresent (a : BusAddr) (s : State) : (bindTo a s).diagPresent = s.diagPresent := rfl

/-! ### setEncIn -/

@[simp] theorem setEncIn_bound (later : List Byte) (s : State) : (setEncIn later s).bound = s.bound := rfl
@[simp] theorem setEncIn_busaddr (later : List Byte) (s : State) : (setEncIn later s).busaddr = s.busaddr := rfl
@[simp] theorem setEncIn_phase (later : List Byte) (s : State) : (setEncIn later s).phase = s.phase := rfl
@[simp] theorem setEncIn_req (later : List Byte) (s : State) : (setEncIn later s).req = s.req := rfl
@[simp] theorem setEncIn_cmd (later : List Byte) (s : State) : (setEncIn later s).cmd = s.cmd := rfl
@[simp] theorem setEncIn_dlo (later : List Byte) (s : State) : (setEncIn later s).dlo = s.dlo := rfl
@[simp] theorem setEncIn_treq (later : List Byte) (s : State) : (setEncIn later s).treq = s.treq := rfl
@[simp] theorem setEncIn_reply (later : List Byte) (s : State) : (setEncIn later s).reply = s.reply := rfl
@[simp] theorem setEncIn_rsp (later : List Byte) (s : State) : (setEncIn later s).rsp = s.rsp := rfl
@[simp] theorem setEncIn_bus (later : List Byte) (s : State) : (setEncIn later s).bus = s.bus := rfl
@[simp] theorem setEncIn_issued (later : List Byte) (s : State) : (setEncIn later s).issued = s.issued := rfl
@[simp] theorem setEncIn_events (later : List Byte) (s : State) : (setEncIn later s).events = s.events := rfl
@[simp] theorem setEncIn_encOut (later : List Byte) (s : State) : (setEncIn later s).encOut = s.encOut := rfl
@[simp] theorem setEncIn_tcuOut (later : List Byte) (s : State) : (setEncIn later s).tcuOut = s.tcuOut := rfl
@[simp] theorem setEncIn_encIn (later : List Byte) (s : State) : (setEncIn later s).encIn = later := rfl
@[simp] theorem setEncIn_tcuIn (later : List Byte) (s : State) : (setEncIn later s).tcuIn = s.tcuIn := rfl
@[simp] theorem setEncIn_presented (later : List Byte) (s : State) : (setEncIn later s).presented = s.presented := rfl
@[simp] theorem setEncIn_answers (later : List Byte) (s : State) : (setEncIn later s).answers = s.answers := rfl
@[simp] theorem setEncIn_takes (later : List Byte) (s : State) : (setEncIn later s).takes = s.takes := rfl
@[simp] theorem setEncIn_resetLine (later : List Byte) (s : State) : (setEncIn later s).resetLine = s.resetLine := rfl
@[simp] theorem setEncIn_diagPresent (later : List Byte) (s : State) :
    (setEncIn later s).diagPresent = s.diagPresent := rfl

/-! ### setTcuIn -/

@[simp] theorem setTcuIn_bound (later : List TcuCall) (s : State) : (setTcuIn later s).bound = s.bound := rfl
@[simp] theorem setTcuIn_busaddr (later : List TcuCall) (s : State) : (setTcuIn later s).busaddr = s.busaddr := rfl
@[simp] theorem setTcuIn_phase (later : List TcuCall) (s : State) : (setTcuIn later s).phase = s.phase := rfl
@[simp] theorem setTcuIn_req (later : List TcuCall) (s : State) : (setTcuIn later s).req = s.req := rfl
@[simp] theorem setTcuIn_cmd (later : List TcuCall) (s : State) : (setTcuIn later s).cmd = s.cmd := rfl
@[simp] theorem setTcuIn_dlo (later : List TcuCall) (s : State) : (setTcuIn later s).dlo = s.dlo := rfl
@[simp] theorem setTcuIn_treq (later : List TcuCall) (s : State) : (setTcuIn later s).treq = s.treq := rfl
@[simp] theorem setTcuIn_reply (later : List TcuCall) (s : State) : (setTcuIn later s).reply = s.reply := rfl
@[simp] theorem setTcuIn_rsp (later : List TcuCall) (s : State) : (setTcuIn later s).rsp = s.rsp := rfl
@[simp] theorem setTcuIn_bus (later : List TcuCall) (s : State) : (setTcuIn later s).bus = s.bus := rfl
@[simp] theorem setTcuIn_issued (later : List TcuCall) (s : State) : (setTcuIn later s).issued = s.issued := rfl
@[simp] theorem setTcuIn_events (later : List TcuCall) (s : State) : (setTcuIn later s).events = s.events := rfl
@[simp] theorem setTcuIn_encOut (later : List TcuCall) (s : State) : (setTcuIn later s).encOut = s.encOut := rfl
@[simp] theorem setTcuIn_tcuOut (later : List TcuCall) (s : State) : (setTcuIn later s).tcuOut = s.tcuOut := rfl
@[simp] theorem setTcuIn_encIn (later : List TcuCall) (s : State) : (setTcuIn later s).encIn = s.encIn := rfl
@[simp] theorem setTcuIn_tcuIn (later : List TcuCall) (s : State) : (setTcuIn later s).tcuIn = later := rfl
@[simp] theorem setTcuIn_presented (later : List TcuCall) (s : State) :
    (setTcuIn later s).presented = s.presented := rfl
@[simp] theorem setTcuIn_answers (later : List TcuCall) (s : State) : (setTcuIn later s).answers = s.answers := rfl
@[simp] theorem setTcuIn_takes (later : List TcuCall) (s : State) : (setTcuIn later s).takes = s.takes := rfl
@[simp] theorem setTcuIn_resetLine (later : List TcuCall) (s : State) :
    (setTcuIn later s).resetLine = s.resetLine := rfl
@[simp] theorem setTcuIn_diagPresent (later : List TcuCall) (s : State) :
    (setTcuIn later s).diagPresent = s.diagPresent := rfl

/-! ### setEncOut -/

@[simp] theorem setEncOut_bound (b : Option Byte) (s : State) : (setEncOut b s).bound = s.bound := rfl
@[simp] theorem setEncOut_busaddr (b : Option Byte) (s : State) : (setEncOut b s).busaddr = s.busaddr := rfl
@[simp] theorem setEncOut_phase (b : Option Byte) (s : State) : (setEncOut b s).phase = s.phase := rfl
@[simp] theorem setEncOut_req (b : Option Byte) (s : State) : (setEncOut b s).req = s.req := rfl
@[simp] theorem setEncOut_cmd (b : Option Byte) (s : State) : (setEncOut b s).cmd = s.cmd := rfl
@[simp] theorem setEncOut_dlo (b : Option Byte) (s : State) : (setEncOut b s).dlo = s.dlo := rfl
@[simp] theorem setEncOut_treq (b : Option Byte) (s : State) : (setEncOut b s).treq = s.treq := rfl
@[simp] theorem setEncOut_reply (b : Option Byte) (s : State) : (setEncOut b s).reply = s.reply := rfl
@[simp] theorem setEncOut_rsp (b : Option Byte) (s : State) : (setEncOut b s).rsp = s.rsp := rfl
@[simp] theorem setEncOut_bus (b : Option Byte) (s : State) : (setEncOut b s).bus = s.bus := rfl
@[simp] theorem setEncOut_issued (b : Option Byte) (s : State) : (setEncOut b s).issued = s.issued := rfl
@[simp] theorem setEncOut_events (b : Option Byte) (s : State) : (setEncOut b s).events = s.events := rfl
@[simp] theorem setEncOut_encOut (b : Option Byte) (s : State) : (setEncOut b s).encOut = b := rfl
@[simp] theorem setEncOut_tcuOut (b : Option Byte) (s : State) : (setEncOut b s).tcuOut = s.tcuOut := rfl
@[simp] theorem setEncOut_encIn (b : Option Byte) (s : State) : (setEncOut b s).encIn = s.encIn := rfl
@[simp] theorem setEncOut_tcuIn (b : Option Byte) (s : State) : (setEncOut b s).tcuIn = s.tcuIn := rfl
@[simp] theorem setEncOut_presented (b : Option Byte) (s : State) : (setEncOut b s).presented = s.presented := rfl
@[simp] theorem setEncOut_answers (b : Option Byte) (s : State) : (setEncOut b s).answers = s.answers := rfl
@[simp] theorem setEncOut_takes (b : Option Byte) (s : State) : (setEncOut b s).takes = s.takes := rfl
@[simp] theorem setEncOut_resetLine (b : Option Byte) (s : State) : (setEncOut b s).resetLine = s.resetLine := rfl
@[simp] theorem setEncOut_diagPresent (b : Option Byte) (s : State) : (setEncOut b s).diagPresent = s.diagPresent := rfl

/-! ### setTcuOut -/

@[simp] theorem setTcuOut_bound (y : Option TcuResult) (s : State) : (setTcuOut y s).bound = s.bound := rfl
@[simp] theorem setTcuOut_busaddr (y : Option TcuResult) (s : State) : (setTcuOut y s).busaddr = s.busaddr := rfl
@[simp] theorem setTcuOut_phase (y : Option TcuResult) (s : State) : (setTcuOut y s).phase = s.phase := rfl
@[simp] theorem setTcuOut_req (y : Option TcuResult) (s : State) : (setTcuOut y s).req = s.req := rfl
@[simp] theorem setTcuOut_cmd (y : Option TcuResult) (s : State) : (setTcuOut y s).cmd = s.cmd := rfl
@[simp] theorem setTcuOut_dlo (y : Option TcuResult) (s : State) : (setTcuOut y s).dlo = s.dlo := rfl
@[simp] theorem setTcuOut_treq (y : Option TcuResult) (s : State) : (setTcuOut y s).treq = s.treq := rfl
@[simp] theorem setTcuOut_reply (y : Option TcuResult) (s : State) : (setTcuOut y s).reply = s.reply := rfl
@[simp] theorem setTcuOut_rsp (y : Option TcuResult) (s : State) : (setTcuOut y s).rsp = s.rsp := rfl
@[simp] theorem setTcuOut_bus (y : Option TcuResult) (s : State) : (setTcuOut y s).bus = s.bus := rfl
@[simp] theorem setTcuOut_issued (y : Option TcuResult) (s : State) : (setTcuOut y s).issued = s.issued := rfl
@[simp] theorem setTcuOut_events (y : Option TcuResult) (s : State) : (setTcuOut y s).events = s.events := rfl
@[simp] theorem setTcuOut_encOut (y : Option TcuResult) (s : State) : (setTcuOut y s).encOut = s.encOut := rfl
@[simp] theorem setTcuOut_tcuOut (y : Option TcuResult) (s : State) : (setTcuOut y s).tcuOut = y := rfl
@[simp] theorem setTcuOut_encIn (y : Option TcuResult) (s : State) : (setTcuOut y s).encIn = s.encIn := rfl
@[simp] theorem setTcuOut_tcuIn (y : Option TcuResult) (s : State) : (setTcuOut y s).tcuIn = s.tcuIn := rfl
@[simp] theorem setTcuOut_presented (y : Option TcuResult) (s : State) : (setTcuOut y s).presented = s.presented := rfl
@[simp] theorem setTcuOut_answers (y : Option TcuResult) (s : State) : (setTcuOut y s).answers = s.answers := rfl
@[simp] theorem setTcuOut_takes (y : Option TcuResult) (s : State) : (setTcuOut y s).takes = s.takes := rfl
@[simp] theorem setTcuOut_resetLine (y : Option TcuResult) (s : State) : (setTcuOut y s).resetLine = s.resetLine := rfl
@[simp] theorem setTcuOut_diagPresent (y : Option TcuResult) (s : State) :
    (setTcuOut y s).diagPresent = s.diagPresent := rfl

/-! ### setPresented -/

@[simp] theorem setPresented_bound (later : List (BitVec 32)) (s : State) :
    (setPresented later s).bound = s.bound := rfl
@[simp] theorem setPresented_busaddr (later : List (BitVec 32)) (s : State) :
    (setPresented later s).busaddr = s.busaddr := rfl
@[simp] theorem setPresented_phase (later : List (BitVec 32)) (s : State) :
    (setPresented later s).phase = s.phase := rfl
@[simp] theorem setPresented_req (later : List (BitVec 32)) (s : State) : (setPresented later s).req = s.req := rfl
@[simp] theorem setPresented_cmd (later : List (BitVec 32)) (s : State) : (setPresented later s).cmd = s.cmd := rfl
@[simp] theorem setPresented_dlo (later : List (BitVec 32)) (s : State) : (setPresented later s).dlo = s.dlo := rfl
@[simp] theorem setPresented_treq (later : List (BitVec 32)) (s : State) : (setPresented later s).treq = s.treq := rfl
@[simp] theorem setPresented_reply (later : List (BitVec 32)) (s : State) :
    (setPresented later s).reply = s.reply := rfl
@[simp] theorem setPresented_rsp (later : List (BitVec 32)) (s : State) : (setPresented later s).rsp = s.rsp := rfl
@[simp] theorem setPresented_bus (later : List (BitVec 32)) (s : State) : (setPresented later s).bus = s.bus := rfl
@[simp] theorem setPresented_issued (later : List (BitVec 32)) (s : State) :
    (setPresented later s).issued = s.issued := rfl
@[simp] theorem setPresented_events (later : List (BitVec 32)) (s : State) :
    (setPresented later s).events = s.events := rfl
@[simp] theorem setPresented_encOut (later : List (BitVec 32)) (s : State) :
    (setPresented later s).encOut = s.encOut := rfl
@[simp] theorem setPresented_tcuOut (later : List (BitVec 32)) (s : State) :
    (setPresented later s).tcuOut = s.tcuOut := rfl
@[simp] theorem setPresented_encIn (later : List (BitVec 32)) (s : State) :
    (setPresented later s).encIn = s.encIn := rfl
@[simp] theorem setPresented_tcuIn (later : List (BitVec 32)) (s : State) :
    (setPresented later s).tcuIn = s.tcuIn := rfl
@[simp] theorem setPresented_presented (later : List (BitVec 32)) (s : State) :
    (setPresented later s).presented = later := rfl
@[simp] theorem setPresented_answers (later : List (BitVec 32)) (s : State) :
    (setPresented later s).answers = s.answers := rfl
@[simp] theorem setPresented_takes (later : List (BitVec 32)) (s : State) :
    (setPresented later s).takes = s.takes := rfl
@[simp] theorem setPresented_resetLine (later : List (BitVec 32)) (s : State) :
    (setPresented later s).resetLine = s.resetLine := rfl
@[simp] theorem setPresented_diagPresent (later : List (BitVec 32)) (s : State) :
    (setPresented later s).diagPresent = s.diagPresent := rfl

/-! ### setTakes -/

@[simp] theorem setTakes_bound (n : Nat) (s : State) : (setTakes n s).bound = s.bound := rfl
@[simp] theorem setTakes_busaddr (n : Nat) (s : State) : (setTakes n s).busaddr = s.busaddr := rfl
@[simp] theorem setTakes_phase (n : Nat) (s : State) : (setTakes n s).phase = s.phase := rfl
@[simp] theorem setTakes_req (n : Nat) (s : State) : (setTakes n s).req = s.req := rfl
@[simp] theorem setTakes_cmd (n : Nat) (s : State) : (setTakes n s).cmd = s.cmd := rfl
@[simp] theorem setTakes_dlo (n : Nat) (s : State) : (setTakes n s).dlo = s.dlo := rfl
@[simp] theorem setTakes_treq (n : Nat) (s : State) : (setTakes n s).treq = s.treq := rfl
@[simp] theorem setTakes_reply (n : Nat) (s : State) : (setTakes n s).reply = s.reply := rfl
@[simp] theorem setTakes_rsp (n : Nat) (s : State) : (setTakes n s).rsp = s.rsp := rfl
@[simp] theorem setTakes_bus (n : Nat) (s : State) : (setTakes n s).bus = s.bus := rfl
@[simp] theorem setTakes_issued (n : Nat) (s : State) : (setTakes n s).issued = s.issued := rfl
@[simp] theorem setTakes_events (n : Nat) (s : State) : (setTakes n s).events = s.events := rfl
@[simp] theorem setTakes_encOut (n : Nat) (s : State) : (setTakes n s).encOut = s.encOut := rfl
@[simp] theorem setTakes_tcuOut (n : Nat) (s : State) : (setTakes n s).tcuOut = s.tcuOut := rfl
@[simp] theorem setTakes_encIn (n : Nat) (s : State) : (setTakes n s).encIn = s.encIn := rfl
@[simp] theorem setTakes_tcuIn (n : Nat) (s : State) : (setTakes n s).tcuIn = s.tcuIn := rfl
@[simp] theorem setTakes_presented (n : Nat) (s : State) : (setTakes n s).presented = s.presented := rfl
@[simp] theorem setTakes_answers (n : Nat) (s : State) : (setTakes n s).answers = s.answers := rfl
@[simp] theorem setTakes_takes (n : Nat) (s : State) : (setTakes n s).takes = n := rfl
@[simp] theorem setTakes_resetLine (n : Nat) (s : State) : (setTakes n s).resetLine = s.resetLine := rfl
@[simp] theorem setTakes_diagPresent (n : Nat) (s : State) : (setTakes n s).diagPresent = s.diagPresent := rfl

/-! ### completed -/

@[simp] theorem completed_bound (later : List Draw) (s : State) : (completed later s).bound = s.bound := rfl
@[simp] theorem completed_busaddr (later : List Draw) (s : State) : (completed later s).busaddr = s.busaddr := rfl
@[simp] theorem completed_phase (later : List Draw) (s : State) : (completed later s).phase = s.phase := rfl
@[simp] theorem completed_req (later : List Draw) (s : State) : (completed later s).req = s.req := rfl
@[simp] theorem completed_cmd (later : List Draw) (s : State) : (completed later s).cmd = s.cmd := rfl
@[simp] theorem completed_dlo (later : List Draw) (s : State) : (completed later s).dlo = s.dlo := rfl
@[simp] theorem completed_treq (later : List Draw) (s : State) : (completed later s).treq = s.treq := rfl
@[simp] theorem completed_reply (later : List Draw) (s : State) : (completed later s).reply = s.reply := rfl
@[simp] theorem completed_rsp (later : List Draw) (s : State) : (completed later s).rsp = s.rsp := rfl
@[simp] theorem completed_bus (later : List Draw) (s : State) : (completed later s).bus = none := rfl
@[simp] theorem completed_issued (later : List Draw) (s : State) : (completed later s).issued = s.issued := rfl
@[simp] theorem completed_events (later : List Draw) (s : State) : (completed later s).events = s.events := rfl
@[simp] theorem completed_encOut (later : List Draw) (s : State) : (completed later s).encOut = s.encOut := rfl
@[simp] theorem completed_tcuOut (later : List Draw) (s : State) : (completed later s).tcuOut = s.tcuOut := rfl
@[simp] theorem completed_encIn (later : List Draw) (s : State) : (completed later s).encIn = s.encIn := rfl
@[simp] theorem completed_tcuIn (later : List Draw) (s : State) : (completed later s).tcuIn = s.tcuIn := rfl
@[simp] theorem completed_presented (later : List Draw) (s : State) : (completed later s).presented = s.presented := rfl
@[simp] theorem completed_answers (later : List Draw) (s : State) : (completed later s).answers = later := rfl
@[simp] theorem completed_takes (later : List Draw) (s : State) : (completed later s).takes = s.takes := rfl
@[simp] theorem completed_resetLine (later : List Draw) (s : State) : (completed later s).resetLine = s.resetLine := rfl
@[simp] theorem completed_diagPresent (later : List Draw) (s : State) :
    (completed later s).diagPresent = s.diagPresent := rfl

/-! ### respond -/

@[simp] theorem respond_bound (status : Status) (data : Value) (err : Option TErr) (s : State) :
    (respond status data err s).bound = s.bound := rfl
@[simp] theorem respond_busaddr (status : Status) (data : Value) (err : Option TErr) (s : State) :
    (respond status data err s).busaddr = s.busaddr := rfl
@[simp] theorem respond_phase (status : Status) (data : Value) (err : Option TErr) (s : State) :
    (respond status data err s).phase = .resp := rfl
@[simp] theorem respond_req (status : Status) (data : Value) (err : Option TErr) (s : State) :
    (respond status data err s).req = s.req := rfl
@[simp] theorem respond_cmd (status : Status) (data : Value) (err : Option TErr) (s : State) :
    (respond status data err s).cmd = s.cmd := rfl
@[simp] theorem respond_dlo (status : Status) (data : Value) (err : Option TErr) (s : State) :
    (respond status data err s).dlo = s.dlo := rfl
@[simp] theorem respond_treq (status : Status) (data : Value) (err : Option TErr) (s : State) :
    (respond status data err s).treq = s.treq := rfl
@[simp] theorem respond_reply (status : Status) (data : Value) (err : Option TErr) (s : State) :
    (respond status data err s).reply = s.reply := rfl
@[simp] theorem respond_rsp (status : Status) (data : Value) (err : Option TErr) (s : State) :
    (respond status data err s).rsp = some { status := status, data := data, err := err } := rfl
@[simp] theorem respond_bus (status : Status) (data : Value) (err : Option TErr) (s : State) :
    (respond status data err s).bus = s.bus := rfl
@[simp] theorem respond_issued (status : Status) (data : Value) (err : Option TErr) (s : State) :
    (respond status data err s).issued = s.issued := rfl
@[simp] theorem respond_events (status : Status) (data : Value) (err : Option TErr) (s : State) :
    (respond status data err s).events = s.events := rfl
@[simp] theorem respond_encOut (status : Status) (data : Value) (err : Option TErr) (s : State) :
    (respond status data err s).encOut = s.encOut := rfl
@[simp] theorem respond_tcuOut (status : Status) (data : Value) (err : Option TErr) (s : State) :
    (respond status data err s).tcuOut = s.tcuOut := rfl
@[simp] theorem respond_encIn (status : Status) (data : Value) (err : Option TErr) (s : State) :
    (respond status data err s).encIn = s.encIn := rfl
@[simp] theorem respond_tcuIn (status : Status) (data : Value) (err : Option TErr) (s : State) :
    (respond status data err s).tcuIn = s.tcuIn := rfl
@[simp] theorem respond_presented (status : Status) (data : Value) (err : Option TErr) (s : State) :
    (respond status data err s).presented = s.presented := rfl
@[simp] theorem respond_answers (status : Status) (data : Value) (err : Option TErr) (s : State) :
    (respond status data err s).answers = s.answers := rfl
@[simp] theorem respond_takes (status : Status) (data : Value) (err : Option TErr) (s : State) :
    (respond status data err s).takes = s.takes := rfl
@[simp] theorem respond_resetLine (status : Status) (data : Value) (err : Option TErr) (s : State) :
    (respond status data err s).resetLine = s.resetLine := rfl
@[simp] theorem respond_diagPresent (status : Status) (data : Value) (err : Option TErr) (s : State) :
    (respond status data err s).diagPresent = s.diagPresent := rfl

/-! ### raiseError -/

@[simp] theorem raiseError_bound (status : Status) (err : Option TErr) (s : State) :
    (raiseError status err s).bound = s.bound := rfl
@[simp] theorem raiseError_busaddr (status : Status) (err : Option TErr) (s : State) :
    (raiseError status err s).busaddr = s.busaddr := rfl
@[simp] theorem raiseError_phase (status : Status) (err : Option TErr) (s : State) :
    (raiseError status err s).phase = .resp := rfl
@[simp] theorem raiseError_req (status : Status) (err : Option TErr) (s : State) :
    (raiseError status err s).req = s.req := rfl
@[simp] theorem raiseError_cmd (status : Status) (err : Option TErr) (s : State) :
    (raiseError status err s).cmd = s.cmd := rfl
@[simp] theorem raiseError_dlo (status : Status) (err : Option TErr) (s : State) :
    (raiseError status err s).dlo = s.dlo := rfl
@[simp] theorem raiseError_treq (status : Status) (err : Option TErr) (s : State) :
    (raiseError status err s).treq = s.treq := rfl
@[simp] theorem raiseError_reply (status : Status) (err : Option TErr) (s : State) :
    (raiseError status err s).reply = s.reply := rfl
@[simp] theorem raiseError_rsp (status : Status) (err : Option TErr) (s : State) :
    (raiseError status err s).rsp = some { status := status, data := 0#16, err := err } := rfl
@[simp] theorem raiseError_bus (status : Status) (err : Option TErr) (s : State) :
    (raiseError status err s).bus = s.bus := rfl
@[simp] theorem raiseError_issued (status : Status) (err : Option TErr) (s : State) :
    (raiseError status err s).issued = s.issued := rfl
@[simp] theorem raiseError_events (status : Status) (err : Option TErr) (s : State) :
    (raiseError status err s).events = s.events := rfl
@[simp] theorem raiseError_encOut (status : Status) (err : Option TErr) (s : State) :
    (raiseError status err s).encOut = s.encOut := rfl
@[simp] theorem raiseError_tcuOut (status : Status) (err : Option TErr) (s : State) :
    (raiseError status err s).tcuOut = s.tcuOut := rfl
@[simp] theorem raiseError_encIn (status : Status) (err : Option TErr) (s : State) :
    (raiseError status err s).encIn = s.encIn := rfl
@[simp] theorem raiseError_tcuIn (status : Status) (err : Option TErr) (s : State) :
    (raiseError status err s).tcuIn = s.tcuIn := rfl
@[simp] theorem raiseError_presented (status : Status) (err : Option TErr) (s : State) :
    (raiseError status err s).presented = s.presented := rfl
@[simp] theorem raiseError_answers (status : Status) (err : Option TErr) (s : State) :
    (raiseError status err s).answers = s.answers := rfl
@[simp] theorem raiseError_takes (status : Status) (err : Option TErr) (s : State) :
    (raiseError status err s).takes = s.takes := rfl
@[simp] theorem raiseError_resetLine (status : Status) (err : Option TErr) (s : State) :
    (raiseError status err s).resetLine = s.resetLine := rfl
@[simp] theorem raiseError_diagPresent (status : Status) (err : Option TErr) (s : State) :
    (raiseError status err s).diagPresent = s.diagPresent := rfl

/-! ### takeResponse -/

@[simp] theorem takeResponse_bound (s : State) : (takeResponse s).bound = s.bound := rfl
@[simp] theorem takeResponse_busaddr (s : State) : (takeResponse s).busaddr = s.busaddr := rfl
@[simp] theorem takeResponse_phase (s : State) : (takeResponse s).phase = .idle := rfl
@[simp] theorem takeResponse_req (s : State) : (takeResponse s).req = none := rfl
@[simp] theorem takeResponse_cmd (s : State) : (takeResponse s).cmd = none := rfl
@[simp] theorem takeResponse_dlo (s : State) : (takeResponse s).dlo = none := rfl
@[simp] theorem takeResponse_treq (s : State) : (takeResponse s).treq = none := rfl
@[simp] theorem takeResponse_reply (s : State) : (takeResponse s).reply = none := rfl
@[simp] theorem takeResponse_rsp (s : State) : (takeResponse s).rsp = none := rfl
@[simp] theorem takeResponse_bus (s : State) : (takeResponse s).bus = s.bus := rfl
@[simp] theorem takeResponse_issued (s : State) : (takeResponse s).issued = s.issued := rfl
@[simp] theorem takeResponse_events (s : State) : (takeResponse s).events = s.events := rfl
@[simp] theorem takeResponse_encOut (s : State) : (takeResponse s).encOut = s.encOut := rfl
@[simp] theorem takeResponse_tcuOut (s : State) : (takeResponse s).tcuOut = s.tcuOut := rfl
@[simp] theorem takeResponse_encIn (s : State) : (takeResponse s).encIn = s.encIn := rfl
@[simp] theorem takeResponse_tcuIn (s : State) : (takeResponse s).tcuIn = s.tcuIn := rfl
@[simp] theorem takeResponse_presented (s : State) : (takeResponse s).presented = s.presented := rfl
@[simp] theorem takeResponse_answers (s : State) : (takeResponse s).answers = s.answers := rfl
@[simp] theorem takeResponse_takes (s : State) : (takeResponse s).takes = s.takes := rfl
@[simp] theorem takeResponse_resetLine (s : State) : (takeResponse s).resetLine = s.resetLine := rfl
@[simp] theorem takeResponse_diagPresent (s : State) : (takeResponse s).diagPresent = s.diagPresent := rfl

/-! ### issue -/

@[simp] theorem issue_bound (wait : Phase) (x : Txn) (s : State) : (issue wait x s).bound = s.bound := rfl
@[simp] theorem issue_busaddr (wait : Phase) (x : Txn) (s : State) : (issue wait x s).busaddr = s.busaddr := rfl
@[simp] theorem issue_phase (wait : Phase) (x : Txn) (s : State) : (issue wait x s).phase = wait := rfl
@[simp] theorem issue_req (wait : Phase) (x : Txn) (s : State) : (issue wait x s).req = s.req := rfl
@[simp] theorem issue_cmd (wait : Phase) (x : Txn) (s : State) : (issue wait x s).cmd = s.cmd := rfl
@[simp] theorem issue_dlo (wait : Phase) (x : Txn) (s : State) : (issue wait x s).dlo = s.dlo := rfl
@[simp] theorem issue_treq (wait : Phase) (x : Txn) (s : State) : (issue wait x s).treq = s.treq := rfl
@[simp] theorem issue_reply (wait : Phase) (x : Txn) (s : State) : (issue wait x s).reply = s.reply := rfl
@[simp] theorem issue_rsp (wait : Phase) (x : Txn) (s : State) : (issue wait x s).rsp = s.rsp := rfl
@[simp] theorem issue_bus (wait : Phase) (x : Txn) (s : State) : (issue wait x s).bus = some x := rfl
@[simp] theorem issue_issued (wait : Phase) (x : Txn) (s : State) : (issue wait x s).issued = s.issued ++ [x] := rfl
@[simp] theorem issue_events (wait : Phase) (x : Txn) (s : State) : (issue wait x s).events = s.events := rfl
@[simp] theorem issue_encOut (wait : Phase) (x : Txn) (s : State) : (issue wait x s).encOut = s.encOut := rfl
@[simp] theorem issue_tcuOut (wait : Phase) (x : Txn) (s : State) : (issue wait x s).tcuOut = s.tcuOut := rfl
@[simp] theorem issue_encIn (wait : Phase) (x : Txn) (s : State) : (issue wait x s).encIn = s.encIn := rfl
@[simp] theorem issue_tcuIn (wait : Phase) (x : Txn) (s : State) : (issue wait x s).tcuIn = s.tcuIn := rfl
@[simp] theorem issue_presented (wait : Phase) (x : Txn) (s : State) : (issue wait x s).presented = s.presented := rfl
@[simp] theorem issue_answers (wait : Phase) (x : Txn) (s : State) : (issue wait x s).answers = s.answers := rfl
@[simp] theorem issue_takes (wait : Phase) (x : Txn) (s : State) : (issue wait x s).takes = s.takes := rfl
@[simp] theorem issue_resetLine (wait : Phase) (x : Txn) (s : State) : (issue wait x s).resetLine = s.resetLine := rfl
@[simp] theorem issue_diagPresent (wait : Phase) (x : Txn) (s : State) :
    (issue wait x s).diagPresent = s.diagPresent := rfl

/-! ### emit -/

@[simp] theorem emit_bound (e : DiagEvent) (s : State) : (emit e s).bound = s.bound := rfl
@[simp] theorem emit_busaddr (e : DiagEvent) (s : State) : (emit e s).busaddr = s.busaddr := rfl
@[simp] theorem emit_phase (e : DiagEvent) (s : State) : (emit e s).phase = s.phase := rfl
@[simp] theorem emit_req (e : DiagEvent) (s : State) : (emit e s).req = s.req := rfl
@[simp] theorem emit_cmd (e : DiagEvent) (s : State) : (emit e s).cmd = s.cmd := rfl
@[simp] theorem emit_dlo (e : DiagEvent) (s : State) : (emit e s).dlo = s.dlo := rfl
@[simp] theorem emit_treq (e : DiagEvent) (s : State) : (emit e s).treq = s.treq := rfl
@[simp] theorem emit_reply (e : DiagEvent) (s : State) : (emit e s).reply = s.reply := rfl
@[simp] theorem emit_rsp (e : DiagEvent) (s : State) : (emit e s).rsp = s.rsp := rfl
@[simp] theorem emit_bus (e : DiagEvent) (s : State) : (emit e s).bus = s.bus := rfl
@[simp] theorem emit_issued (e : DiagEvent) (s : State) : (emit e s).issued = s.issued := rfl
@[simp] theorem emit_events (e : DiagEvent) (s : State) :
    (emit e s).events = if s.diagPresent then s.events ++ [e] else s.events := rfl
@[simp] theorem emit_encOut (e : DiagEvent) (s : State) : (emit e s).encOut = s.encOut := rfl
@[simp] theorem emit_tcuOut (e : DiagEvent) (s : State) : (emit e s).tcuOut = s.tcuOut := rfl
@[simp] theorem emit_encIn (e : DiagEvent) (s : State) : (emit e s).encIn = s.encIn := rfl
@[simp] theorem emit_tcuIn (e : DiagEvent) (s : State) : (emit e s).tcuIn = s.tcuIn := rfl
@[simp] theorem emit_presented (e : DiagEvent) (s : State) : (emit e s).presented = s.presented := rfl
@[simp] theorem emit_answers (e : DiagEvent) (s : State) : (emit e s).answers = s.answers := rfl
@[simp] theorem emit_takes (e : DiagEvent) (s : State) : (emit e s).takes = s.takes := rfl
@[simp] theorem emit_resetLine (e : DiagEvent) (s : State) : (emit e s).resetLine = s.resetLine := rfl
@[simp] theorem emit_diagPresent (e : DiagEvent) (s : State) : (emit e s).diagPresent = s.diagPresent := rfl

/-! ### resetBlock -/

@[simp] theorem resetBlock_bound (s : State) : (resetBlock s).bound = false := rfl
@[simp] theorem resetBlock_busaddr (s : State) : (resetBlock s).busaddr = none := rfl
@[simp] theorem resetBlock_phase (s : State) : (resetBlock s).phase = .idle := rfl
@[simp] theorem resetBlock_req (s : State) : (resetBlock s).req = none := rfl
@[simp] theorem resetBlock_cmd (s : State) : (resetBlock s).cmd = none := rfl
@[simp] theorem resetBlock_dlo (s : State) : (resetBlock s).dlo = none := rfl
@[simp] theorem resetBlock_treq (s : State) : (resetBlock s).treq = none := rfl
@[simp] theorem resetBlock_reply (s : State) : (resetBlock s).reply = none := rfl
@[simp] theorem resetBlock_rsp (s : State) : (resetBlock s).rsp = none := rfl
@[simp] theorem resetBlock_bus (s : State) : (resetBlock s).bus = none := rfl
@[simp] theorem resetBlock_issued (s : State) : (resetBlock s).issued = s.issued := rfl
@[simp] theorem resetBlock_events (s : State) : (resetBlock s).events = s.events := rfl
@[simp] theorem resetBlock_encOut (s : State) : (resetBlock s).encOut = s.encOut := rfl
@[simp] theorem resetBlock_tcuOut (s : State) : (resetBlock s).tcuOut = s.tcuOut := rfl
@[simp] theorem resetBlock_encIn (s : State) : (resetBlock s).encIn = s.encIn := rfl
@[simp] theorem resetBlock_tcuIn (s : State) : (resetBlock s).tcuIn = s.tcuIn := rfl
@[simp] theorem resetBlock_presented (s : State) : (resetBlock s).presented = s.presented := rfl
@[simp] theorem resetBlock_answers (s : State) : (resetBlock s).answers = s.answers := rfl
@[simp] theorem resetBlock_takes (s : State) : (resetBlock s).takes = s.takes := rfl
@[simp] theorem resetBlock_resetLine (s : State) : (resetBlock s).resetLine = false := rfl
@[simp] theorem resetBlock_diagPresent (s : State) : (resetBlock s).diagPresent = s.diagPresent := rfl

/-! ### readyForRequest -/

@[simp] theorem readyForRequest_bound (s : State) : (readyForRequest s).bound = s.bound := rfl
@[simp] theorem readyForRequest_busaddr (s : State) : (readyForRequest s).busaddr = s.busaddr := rfl
@[simp] theorem readyForRequest_phase (s : State) : (readyForRequest s).phase = .idle := rfl
@[simp] theorem readyForRequest_req (s : State) : (readyForRequest s).req = none := rfl
@[simp] theorem readyForRequest_cmd (s : State) : (readyForRequest s).cmd = none := rfl
@[simp] theorem readyForRequest_dlo (s : State) : (readyForRequest s).dlo = none := rfl
@[simp] theorem readyForRequest_treq (s : State) : (readyForRequest s).treq = none := rfl
@[simp] theorem readyForRequest_reply (s : State) : (readyForRequest s).reply = none := rfl
@[simp] theorem readyForRequest_rsp (s : State) : (readyForRequest s).rsp = none := rfl
@[simp] theorem readyForRequest_bus (s : State) : (readyForRequest s).bus = none := rfl
@[simp] theorem readyForRequest_issued (s : State) : (readyForRequest s).issued = s.issued := rfl
@[simp] theorem readyForRequest_events (s : State) : (readyForRequest s).events = s.events := rfl
@[simp] theorem readyForRequest_encOut (s : State) : (readyForRequest s).encOut = s.encOut := rfl
@[simp] theorem readyForRequest_tcuOut (s : State) : (readyForRequest s).tcuOut = s.tcuOut := rfl
@[simp] theorem readyForRequest_encIn (s : State) : (readyForRequest s).encIn = s.encIn := rfl
@[simp] theorem readyForRequest_tcuIn (s : State) : (readyForRequest s).tcuIn = s.tcuIn := rfl
@[simp] theorem readyForRequest_presented (s : State) : (readyForRequest s).presented = s.presented := rfl
@[simp] theorem readyForRequest_answers (s : State) : (readyForRequest s).answers = s.answers := rfl
@[simp] theorem readyForRequest_takes (s : State) : (readyForRequest s).takes = s.takes := rfl
@[simp] theorem readyForRequest_resetLine (s : State) : (readyForRequest s).resetLine = s.resetLine := rfl
@[simp] theorem readyForRequest_diagPresent (s : State) : (readyForRequest s).diagPresent = s.diagPresent := rfl

/-! ### quietPorts -/

@[simp] theorem quietPorts_bound (s : State) : (quietPorts s).bound = s.bound := rfl
@[simp] theorem quietPorts_busaddr (s : State) : (quietPorts s).busaddr = s.busaddr := rfl
@[simp] theorem quietPorts_phase (s : State) : (quietPorts s).phase = .idle := rfl
@[simp] theorem quietPorts_req (s : State) : (quietPorts s).req = none := rfl
@[simp] theorem quietPorts_cmd (s : State) : (quietPorts s).cmd = none := rfl
@[simp] theorem quietPorts_dlo (s : State) : (quietPorts s).dlo = none := rfl
@[simp] theorem quietPorts_treq (s : State) : (quietPorts s).treq = none := rfl
@[simp] theorem quietPorts_reply (s : State) : (quietPorts s).reply = none := rfl
@[simp] theorem quietPorts_rsp (s : State) : (quietPorts s).rsp = none := rfl
@[simp] theorem quietPorts_bus (s : State) : (quietPorts s).bus = none := rfl
@[simp] theorem quietPorts_issued (s : State) : (quietPorts s).issued = s.issued := rfl
@[simp] theorem quietPorts_events (s : State) : (quietPorts s).events = s.events := rfl
@[simp] theorem quietPorts_encOut (s : State) : (quietPorts s).encOut = s.encOut := rfl
@[simp] theorem quietPorts_tcuOut (s : State) : (quietPorts s).tcuOut = s.tcuOut := rfl
@[simp] theorem quietPorts_encIn (s : State) : (quietPorts s).encIn = [] := rfl
@[simp] theorem quietPorts_tcuIn (s : State) : (quietPorts s).tcuIn = [] := rfl
@[simp] theorem quietPorts_presented (s : State) : (quietPorts s).presented = [] := rfl
@[simp] theorem quietPorts_answers (s : State) : (quietPorts s).answers = s.answers := rfl
@[simp] theorem quietPorts_takes (s : State) : (quietPorts s).takes = s.takes := rfl
@[simp] theorem quietPorts_resetLine (s : State) : (quietPorts s).resetLine = false := rfl
@[simp] theorem quietPorts_diagPresent (s : State) : (quietPorts s).diagPresent = s.diagPresent := rfl

/-! ### afterUnits -/

@[simp] theorem afterUnits_bound (s : State) : (afterUnits s).bound = s.bound := rfl
@[simp] theorem afterUnits_busaddr (s : State) : (afterUnits s).busaddr = s.busaddr := rfl
@[simp] theorem afterUnits_phase (s : State) : (afterUnits s).phase = s.phase := rfl
@[simp] theorem afterUnits_req (s : State) : (afterUnits s).req = s.req := rfl
@[simp] theorem afterUnits_cmd (s : State) : (afterUnits s).cmd = s.cmd := rfl
@[simp] theorem afterUnits_dlo (s : State) : (afterUnits s).dlo = s.dlo := rfl
@[simp] theorem afterUnits_treq (s : State) : (afterUnits s).treq = s.treq := rfl
@[simp] theorem afterUnits_reply (s : State) : (afterUnits s).reply = s.reply := rfl
@[simp] theorem afterUnits_rsp (s : State) : (afterUnits s).rsp = s.rsp := rfl
@[simp] theorem afterUnits_bus (s : State) : (afterUnits s).bus = s.bus := rfl
@[simp] theorem afterUnits_issued (s : State) : (afterUnits s).issued = s.issued := rfl
@[simp] theorem afterUnits_events (s : State) : (afterUnits s).events = s.events := rfl
@[simp] theorem afterUnits_encOut (s : State) : (afterUnits s).encOut = s.encIn.head? := rfl
@[simp] theorem afterUnits_tcuOut (s : State) : (afterUnits s).tcuOut = s.tcuIn.head?.map tcuAnswer := rfl
@[simp] theorem afterUnits_encIn (s : State) : (afterUnits s).encIn = s.encIn.tail := rfl
@[simp] theorem afterUnits_tcuIn (s : State) : (afterUnits s).tcuIn = s.tcuIn.tail := rfl
@[simp] theorem afterUnits_presented (s : State) : (afterUnits s).presented = s.presented := rfl
@[simp] theorem afterUnits_answers (s : State) : (afterUnits s).answers = s.answers := rfl
@[simp] theorem afterUnits_takes (s : State) : (afterUnits s).takes = s.takes := rfl
@[simp] theorem afterUnits_resetLine (s : State) : (afterUnits s).resetLine = s.resetLine := rfl
@[simp] theorem afterUnits_diagPresent (s : State) : (afterUnits s).diagPresent = s.diagPresent := rfl

/-! ### refusedWith and withoutDiagnostics -/

theorem raiseError_eq_refusedWith (status : Status) (r : Request) (s : State) :
    raiseError status none (setReq r s) = refusedWith status r s := rfl

@[simp] theorem withoutDiagnostics_emit (e : DiagEvent) (s : State) :
    (emit e s).withoutDiagnostics = s.withoutDiagnostics := rfl

theorem emit_of_sink (e : DiagEvent) (s : State) (h : s.diagPresent = true) :
    (emit e s).events = s.events ++ [e] := by simp [h]

theorem emit_without_sink (e : DiagEvent) (s : State) (h : s.diagPresent = false) : (emit e s).events = s.events := by
  simp [h]

end Sys2Proof.Machine
end

