-- ==== Sys2Proof/Laws/Ops.lean ====
section
/-! SUPPORT. Laws/Ops.lean: for each shared operation, once, everything it can do. -/

namespace Sys2Proof.Machine

/-! ### Reading registers, waiting, taking -/

theorem withValue_next {α : Type} {r : RegName} {v : Option α} {k : α → Result} {t : State}
    (h : withValue r v k = .next t) : ∃ x, v = some x ∧ k x = .next t := by
  cases v with
  | none => cases h
  | some x => exact ⟨x, rfl, h⟩

@[simp] theorem withValue_some {α : Type} (r : RegName) (x : α) (k : α → Result) :
    withValue r (some x) k = k x := rfl

@[simp] theorem withValue_none {α : Type} (r : RegName) (k : α → Result) :
    withValue r none k = .fault (.noValue r) := rfl

/-- Waiting for a completion: there is none, and nothing changes; or the outstanding transaction completes. -/
theorem awaitDraw_cases (k : Draw → State → Result) (s : State) :
    (awaitDraw k s = .next s ∧ (s.bus = none ∨ s.answers = [])) ∨
    ∃ x d later, s.bus = some x ∧ s.answers = d :: later ∧
      awaitDraw k s = k d (completed later s) := by
  unfold awaitDraw
  cases hb : s.bus with
  | none => exact .inl ⟨rfl, .inl rfl⟩
  | some x =>
    cases ha : s.answers with
    | nil => exact .inl ⟨rfl, .inr rfl⟩
    | cons d later => exact .inr ⟨x, d, later, rfl, rfl, rfl⟩

theorem awaitDraw_completes {k : Draw → State → Result} {s : State} {d : Draw} {later : List Draw}
    (hb : s.bus.isSome = true) (ha : s.answers = d :: later) :
    awaitDraw k s = k d (completed later s) := by
  obtain ⟨x, hx⟩ := Option.isSome_iff_exists.mp hb
  simp [awaitDraw, hx, ha]

theorem awaitDraw_waits {k : Draw → State → Result} {s : State} (h : s.answers = []) : awaitDraw k s = .next s := by
  unfold awaitDraw; split
  · next d later _ ha => rw [h] at ha; cases ha
  · rfl

theorem respStep_cases (s : State) :
    (s.takes = 0 ∧ respStep s = .next s) ∨
    ∃ n, s.takes = n + 1 ∧ respStep s = .next (takeResponse (setTakes n s)) := by
  unfold respStep
  cases h : s.takes with
  | zero => exact .inl ⟨rfl, rfl⟩
  | succ n => exact .inr ⟨n, rfl, rfl⟩

/-! ### Issuing -/

theorem issueWrite_next {wait : Phase} {s t : State} (h : issueWrite wait s = .next t) :
    ∃ a c d, s.busaddr = some a ∧ s.cmd = some c ∧ s.dlo = some d ∧ t = issue wait (.busWrite a [c, d]) s := by
  obtain ⟨a, ha, h⟩ := withValue_next h
  obtain ⟨c, hc, h⟩ := withValue_next h
  obtain ⟨d, hd, h⟩ := withValue_next h
  exact ⟨a, c, d, ha, hc, hd, by injection h with h; exact h.symm⟩

theorem issueRead_next {wait : Phase} {s t : State} (h : issueRead wait s = .next t) :
    ∃ a c, s.busaddr = some a ∧ s.cmd = some c ∧ t = issue wait (.busWriteRead a [c] 2) s := by
  obtain ⟨a, ha, h⟩ := withValue_next h
  obtain ⟨c, hc, h⟩ := withValue_next h
  exact ⟨a, c, ha, hc, by injection h with h; exact h.symm⟩

theorem issueWrite_eq {wait : Phase} {s : State} {a : BusAddr} {c d : Byte} (ha : s.busaddr = some a)
    (hc : s.cmd = some c) (hd : s.dlo = some d) :
    issueWrite wait s = .next (issue wait (.busWrite a [c, d]) s) := by
  simp [issueWrite, ha, hc, hd]

theorem issueRead_eq {wait : Phase} {s : State} {a : BusAddr} {c : Byte} (ha : s.busaddr = some a)
    (hc : s.cmd = some c) : issueRead wait s = .next (issue wait (.busWriteRead a [c] 2) s) := by
  simp [issueRead, ha, hc]

/-! ### Admission -/

theorem mappedReg_iff (reg : RegAddr) : mappedReg reg = true ↔ Mapped reg := by
  revert reg; unfold Mapped; decide

@[simp] theorem admit_probe (a : BusAddr) (b : Bool) :
    admission (probeRequest a) b = if b then some .refAlreadyBound else none := by cases b <;> rfl

@[simp] theorem admit_write (reg : RegAddr) (v : Value) (b : Bool) :
    admission (writeRequest reg v) b =
      if b then (if mappedReg reg then none else some .refBadRegister) else some .refNotBound := by
  cases b <;> cases h : mappedReg reg <;> simp [admission, writeRequest, reservedOpc, unusedFieldsZero, h]

@[simp] theorem admit_read (reg : RegAddr) (b : Bool) :
    admission (readRequest reg) b =
      if b then (if mappedReg reg then none else some .refBadRegister) else some .refNotBound := by
  cases b <;> cases h : mappedReg reg <;> simp [admission, readRequest, reservedOpc, unusedFieldsZero, h]

@[simp] theorem admit_configure (t : Tcon) (b : Bool) :
    admission (configureRequest t) b = if b then none else some .refNotBound := by
  cases b <;> simp [admission, configureRequest, reservedOpc, unusedFieldsZero]

@[simp] theorem admit_setWiper0 (v : Value) (b : Bool) :
    admission (setWiper0Request v) b = if b then none else some .refNotBound := by
  cases b <;> simp [admission, setWiper0Request, reservedOpc, unusedFieldsZero]

@[simp] theorem admit_setWiper1 (v : Value) (b : Bool) :
    admission (setWiper1Request v) b = if b then none else some .refNotBound := by
  cases b <;> simp [admission, setWiper1Request, reservedOpc, unusedFieldsZero]

/-- The refusals: a status that admission may give. -/
def Status.isRefusal : Status → Bool
  | .refNotBound | .refAlreadyBound | .refBadRegister | .refBadForm => true
  | .ok | .transportError | .configMismatch => false

theorem admission_isRefusal {r : Request} {b : Bool} {status : Status} (h : admission r b = some status) :
    status.isRefusal = true := by
  unfold admission at h
  repeat' split at h
  all_goals first | (injection h with h; subst h; rfl) | cases h

/-- The form check of R83 is the decoder's: a request decodes exactly when admission does not find bad form. -/
theorem decodeRequest_error_iff_badForm (r : Request) (b : Bool) :
    (∃ e, decodeRequest r = .error e) ↔ admission r b = some .refBadForm := by
  obtain ⟨opc, reg, rsv, baddr, data⟩ := r
  rcases opc_cases opc with rfl | rfl | rfl | rfl | rfl | rfl | rfl | rfl <;> cases b <;>
    simp only [decodeRequest, operationOf, admission, reservedOpc] <;> split <;> simp_all <;> (try split) <;> simp_all

/-! ### The course of an operation -/

/-- Everything `operate` can do: begin in `IDLE`, be refused there, wait or be held, or continue with a completion. -/
theorem operate_cases {r : Request} {begin : State → Result} {continued : Phase → Option (Draw → State → Result)}
    {s t : State} (h : operate r begin continued s = .next t) :
    (s.phase = .idle ∧ admission r s.bound = none ∧ begin (setReq r s) = .next t) ∨
    (∃ status, s.phase = .idle ∧ admission r s.bound = some status ∧ t = refusedWith status r s) ∨
    (s.phase ≠ .idle ∧ t = s) ∨
    (∃ k d later, s.phase ≠ .idle ∧ continued s.phase = some k ∧ s.req = some r ∧ s.bus.isSome = true ∧
      s.answers = d :: later ∧ k d (completed later s) = .next t) := by
  unfold operate at h
  by_cases hp : s.phase = .idle
  · rw [if_pos hp, accept] at h
    cases ha : admission r s.bound with
    | none => exact .inl ⟨hp, rfl, by simpa [ha] using h⟩
    | some status =>
      simp only [ha] at h
      injection h with h
      exact .inr (.inl ⟨status, hp, rfl, h.symm⟩)
  · simp only [hp, if_false] at h
    cases hk : continued s.phase with
    | none =>
      simp only [hk] at h; injection h with h
      exact .inr (.inr (.inl ⟨hp, h.symm⟩))
    | some k =>
      simp only [hk] at h
      by_cases hr : s.req = some r
      · simp only [hr, if_true] at h
        rcases awaitDraw_cases k s with ⟨hw, -⟩ | ⟨x, d, later, hb, hd, hw⟩
        · rw [hw] at h; injection h with h
          exact .inr (.inr (.inl ⟨hp, h.symm⟩))
        · rw [hw] at h
          exact .inr (.inr (.inr ⟨k, d, later, hp, rfl, hr, by simp [hb], hd, h⟩))
      · simp only [hr, if_false] at h; injection h with h
        exact .inr (.inr (.inl ⟨hp, h.symm⟩))

theorem operate_idle {r : Request} {begin : State → Result} {continued : Phase → Option (Draw → State → Result)}
    {s : State} (hp : s.phase = .idle) : operate r begin continued s = accept r begin s := by
  simp [operate, hp]

theorem accept_admitted {r : Request} {begin : State → Result} {s : State} (h : admission r s.bound = none) :
    accept r begin s = begin (setReq r s) := by
  simp [accept, h]

theorem accept_refused {r : Request} {begin : State → Result} {s : State} {status : Status}
    (h : admission r s.bound = some status) : accept r begin s = .next (refusedWith status r s) := by
  simp [accept, h]; rfl

/-- An operation whose transaction completes is continued with the outcome. -/
theorem operate_completing {r : Request} {begin : State → Result}
    {continued : Phase → Option (Draw → State → Result)} {k : Draw → State → Result} {ph : Phase} {d : Draw}
    {later : List Draw} {s : State} (hk : continued ph = some k) (hp : ph ≠ .idle) (h : Completing r ph d later s) :
    operate r begin continued s = k d (completed later s) := by
  obtain ⟨rfl, hr, hb, ha⟩ := h
  rw [operate, if_neg hp, hk]
  simp only []
  rw [if_pos hr]
  exact awaitDraw_completes hb ha

/-- An operation that is not the one in the busy block is held. -/
theorem operate_held {r : Request} {begin : State → Result} {continued : Phase → Option (Draw → State → Result)}
    {s : State} (hp : s.phase ≠ .idle) (h : continued s.phase = none ∨ s.req ≠ some r) :
    operate r begin continued s = .next s := by
  simp only [operate, hp, if_false]
  cases hk : continued s.phase with
  | none => rfl
  | some k =>
    rcases h with h | h
    · rw [hk] at h; cases h
    · simp [h]

end Sys2Proof.Machine
end

