-- ==== Sys2Proof/Laws/PerInstr.lean ====
section
/-! SUPPORT. Laws/PerInstr.lean: the family `EncodedRow`: every instruction's word stands on the port of its row of
spec/opcode_table.json and carries the row's selecting field, with every must-be-zero field zero. -/

namespace Sys2Proof.Laws.EncodedRow

/-- What selects a row: the port and the selecting field, `op` of a command byte (R71), `opc` of a request (R81) or
`fn` of a TCU word (R87). -/
inductive Row where
  | cmd (op : BitVec 2)
  | req (opc : BitVec 3)
  | tcu (fn : BitVec 4)
  deriving DecidableEq, Repr

/-- The row a word selects; none for a request with a must-be-zero field that is not zero. -/
def rowOfWord : PortWord → Option Row
  | .cmd b => some (.cmd (cmdOpBits b))
  | .req w => if unusedFieldsZero (unpackRequest w) then some (.req (unpackRequest w).opc) else none
  | .tcu fn _ _ => some (.tcu fn)

/-- The row of an instruction, from spec/opcode_table.json. -/
def rowOf : Instr → Row
  | .cmdW _ _ => .cmd 0b00#2
  | .cmdInc _ _ => .cmd 0b01#2
  | .cmdDec _ _ => .cmd 0b10#2
  | .cmdRd _ _ => .cmd 0b11#2
  | .probe _ => .req 0b000#3
  | .write _ _ => .req 0b001#3
  | .read _ => .req 0b010#3
  | .configure _ => .req 0b011#3
  | .setWiper0 _ => .req 0b100#3
  | .setWiper1 _ => .req 0b101#3
  | .tcuEmpty => .tcu 0x0#4
  | .tcuAllR0 => .tcu 0x1#4
  | .tcuAllR1 => .tcu 0x2#4
  | .tcuSet _ _ => .tcu 0x3#4
  | .tcuClear _ _ => .tcu 0x4#4
  | .tcuTest _ _ => .tcu 0x5#4
  | .tcuUnion _ _ => .tcu 0x6#4
  | .tcuIntersect _ _ => .tcu 0x7#4
  | .tcuFromRaw _ => .tcu 0x8#4
  | .tcuToRaw _ => .tcu 0x9#4
  | .tcuEq _ _ => .tcu 0xA#4

/-- An instruction's word, well formed or not, selects its own row. -/
def Statement (i : Instr) : Prop := rowOfWord (encode i) = some (rowOf i)

/-- A command byte's row is its operation's. -/
theorem rowOfWord_encodeCmd (op : CmdOp) (a m : Nat) :
    rowOfWord (.cmd (encodeCmd op a m)) = some (.cmd (opCode op)) := by
  simp only [rowOfWord, encodeCmd, cmdOpBits_append]

/-- A request word's row is the `opc` of its record. -/
theorem rowOfWord_packRequest {r : Request} (h : unusedFieldsZero r = true) :
    rowOfWord (.req (packRequest r)) = some (.req r.opc) := by
  simp only [rowOfWord, unpackRequest_packRequest, h, if_true]

theorem cmdW (a m : Nat) : Statement (.cmdW a m) := rowOfWord_encodeCmd .write a m
theorem cmdInc (a m : Nat) : Statement (.cmdInc a m) := rowOfWord_encodeCmd .increment a m
theorem cmdDec (a m : Nat) : Statement (.cmdDec a m) := rowOfWord_encodeCmd .decrement a m
theorem cmdRd (a m : Nat) : Statement (.cmdRd a m) := rowOfWord_encodeCmd .read a m
theorem probe (baddr : BusAddr) : Statement (.probe baddr) := rowOfWord_packRequest rfl
theorem write (reg : RegAddr) (v : Value) : Statement (.write reg v) := rowOfWord_packRequest rfl
theorem read (reg : RegAddr) : Statement (.read reg) := rowOfWord_packRequest rfl
theorem configure (t : Tcon) : Statement (.configure t) :=
  rowOfWord_packRequest (by simp [unusedFieldsZero, configureRequest])
theorem setWiper0 (v : Value) : Statement (.setWiper0 v) := rowOfWord_packRequest rfl
theorem setWiper1 (v : Value) : Statement (.setWiper1 v) := rowOfWord_packRequest rfl
theorem tcuEmpty : Statement .tcuEmpty := rfl
theorem tcuAllR0 : Statement .tcuAllR0 := rfl
theorem tcuAllR1 : Statement .tcuAllR1 := rfl
theorem tcuSet (t m : Tcon) : Statement (.tcuSet t m) := rfl
theorem tcuClear (t m : Tcon) : Statement (.tcuClear t m) := rfl
theorem tcuTest (t m : Tcon) : Statement (.tcuTest t m) := rfl
theorem tcuUnion (a b : Tcon) : Statement (.tcuUnion a b) := rfl
theorem tcuIntersect (a b : Tcon) : Statement (.tcuIntersect a b) := rfl
theorem tcuFromRaw (r : Value) : Statement (.tcuFromRaw r) := rfl
theorem tcuToRaw (t : Tcon) : Statement (.tcuToRaw t) := rfl
theorem tcuEq (a b : Tcon) : Statement (.tcuEq a b) := rfl

end Sys2Proof.Laws.EncodedRow
end

