-- ==== Sys2Proof/Laws/Step.lean ====
section
/-! SUPPORT. Laws/Step.lean: one inversion lemma that says everything a step can do (`step_cases`), so that an
invariant is a case split over `StepCase` and unfolds no meaning. -/

namespace Sys2Proof.Machine

/-- Everything an operation of SEQ can do to a state, guards included. -/
inductive SeqCase (s t : State) : Prop where
  /-- Busy and not completing: held, or the transport does not answer. -/
  | held (busy : s.phase ≠ .idle) (result : t = s)
  | refused (r : Request) (status : Status) (idle : s.phase = .idle) (refusal : status.isRefusal = true)
      (result : t = refusedWith status r s)
  | probeIssue (a : BusAddr) (idle : s.phase = .idle) (unbound : s.bound = false)
      (result : t = issue .probeWait (.busRead a 1) (setReq (probeRequest a) s))
  | writeIssue (a : BusAddr) (reg : RegAddr) (v : Value) (r : Request) (idle : s.phase = .idle) (bound : BoundTo a s)
      (requested : WriteRequested reg v r)
      (result : t = issue .wrWait (.busWrite a (wframe reg v))
        (setDlo (valueLow v) (setCmd (writeCommand reg v) (setReq r s))))
  | readIssue (a : BusAddr) (reg : RegAddr) (idle : s.phase = .idle) (bound : BoundTo a s)
      (mapped : mappedReg reg = true)
      (result : t = issue .rdWait (.busWriteRead a (rframe reg) 2)
        (setCmd (readCommand reg) (setReq (readRequest reg) s)))
  | configureIssue (a : BusAddr) (c : Tcon) (idle : s.phase = .idle) (bound : BoundTo a s)
      (result : t = issue .cfgWrWait (.busWrite a (wframe control (tconToRaw c)))
        (setDlo (valueLow (tconToRaw c)) (setCmd (writeCommand control (tconToRaw c))
          (setTreq c (setReq (configureRequest c) s)))))
  | failed (event : DiagEvent) (e : TErr) (later : List Draw)
      (waiting : s.phase.isWait = true) (outstanding : s.bus.isSome = true) (drawn : s.answers = .err e :: later)
      (result : t = raiseError .transportError (some e) (emit event (completed later s)))
  | probeDone (a : BusAddr) (b0 b1 : Byte) (later : List Draw) (waiting : s.phase = .probeWait)
      (inProgress : s.req = some (probeRequest a)) (outstanding : s.bus.isSome = true)
      (drawn : s.answers = .ok b0 b1 :: later)
      (result : t = respond .ok 0#16 none
        (emit (.probeResult a none) (bindTo a (completed later s))))
  | writeDone (reg : RegAddr) (v : Value) (r : Request) (b0 b1 : Byte) (later : List Draw)
      (waiting : s.phase = .wrWait) (inProgress : s.req = some r) (outstanding : s.bus.isSome = true)
      (drawn : s.answers = .ok b0 b1 :: later)
      (result : t = respond .ok 0#16 none (emit (.writeResult reg v none) (completed later s)))
  | readDone (reg : RegAddr) (r0 r1 : Byte) (later : List Draw) (waiting : s.phase = .rdWait)
      (inProgress : s.req = some (readRequest reg)) (outstanding : s.bus.isSome = true)
      (drawn : s.answers = .ok r0 r1 :: later)
      (result : t = respond .ok (reasm r0 r1) none
        (emit (.readResult reg (.reply (reasm r0 r1))) (setReply (reasm r0 r1) (completed later s))))
  | configureWritten (a : BusAddr) (c : Tcon) (b0 b1 : Byte) (later : List Draw) (waiting : s.phase = .cfgWrWait)
      (inProgress : s.req = some (configureRequest c)) (outstanding : s.bus.isSome = true)
      (drawn : s.answers = .ok b0 b1 :: later) (address : s.busaddr = some a)
      (result : t = issue .cfgRdWait (.busWriteRead a (rframe control) 2)
        (setCmd (readCommand control) (emit (.writeResult control (tconToRaw c) none) (completed later s))))
  | configureRead (c want : Tcon) (r0 r1 : Byte) (later : List Draw) (waiting : s.phase = .cfgRdWait)
      (inProgress : s.req = some (configureRequest c)) (outstanding : s.bus.isSome = true)
      (drawn : s.answers = .ok r0 r1 :: later) (wanted : s.treq = some want)
      (result : t = compareReadBack (tconFromRaw (reasm r0 r1)) want
        (emit (.readResult control (.reply (reasm r0 r1))) (setReply (reasm r0 r1) (completed later s))))

/-- Everything a step can do, once ENC and TCU have answered what is at their ports. -/
inductive StepCase (s t : State) : Prop where
  | reset (line : s.resetLine = true) (result : t = resetBlock s)
  | waiting (line : s.resetLine = false) (result : t = s)
  | taken (line : s.resetLine = false) (n : Nat) (presenting : s.phase = .resp) (ready : s.takes = n + 1)
      (result : t = takeResponse (setTakes n s))
  | accepted (line : s.resetLine = false) (w : BitVec 32) (later : List (BitVec 32)) (idle : s.phase = .idle)
      (presented : s.presented = w :: later) (course : SeqCase (setPresented later s) t)
  | continued (line : s.resetLine = false) (busy : s.phase.isWait = true) (course : SeqCase s t)

/-! ### The six operations -/

theorem failTransport_next {event : DiagEvent} {e : TErr} {s t : State} (h : failTransport event e s = .next t) :
    t = raiseError .transportError (some e) (emit event s) := by injection h with h; exact h.symm

theorem isWait_of {p q : Phase} (h : p = q) (hq : q.isWait = true) : p.isWait = true := h ▸ hq

theorem execProbe_cases {a : BusAddr} {s t : State} (h : execProbe a s = .next t) : SeqCase s t := by
  rcases operate_cases h with ⟨hp, ha, hb⟩ | ⟨st, hp, ha, rfl⟩ | ⟨hp, rfl⟩ | ⟨k, d, later, hp, hk, hr, hb, hd, h⟩
  · injection hb with hb
    exact .probeIssue a hp (by simpa using ha) hb.symm
  · exact .refused _ st hp (admission_isRefusal ha) rfl
  · exact .held hp rfl
  · cases hph : s.phase <;> simp only [hph, probeContinued, reduceCtorEq] at hk
    injection hk with hk; subst hk
    cases d with
    | ok b0 b1 =>
      injection h with h
      exact .probeDone a b0 b1 later hph hr hb hd h.symm
    | err e => exact .failed _ e later (isWait_of hph rfl) hb hd (failTransport_next h)

/-- The shared course of WRITE and the two wiper operations. -/
theorem write_cases {reg : RegAddr} {v : Value} {r : Request} {s t : State}
    (hadmit : admission r s.bound = none → s.bound = true ∧ WriteRequested reg v r)
    (h : operate r (beginWrite reg v) (writeContinued reg v) s = .next t) : SeqCase s t := by
  rcases operate_cases h with ⟨hp, ha, hb⟩ | ⟨st, hp, ha, rfl⟩ | ⟨hp, rfl⟩ | ⟨k, d, later, hp, hk, hr, hb, hd, h⟩
  · obtain ⟨hbound, hw⟩ := hadmit ha
    obtain ⟨a, c, d, haddr, hc, hd, rfl⟩ := issueWrite_next hb
    injection hc with hc; injection hd with hd; subst hc hd
    exact .writeIssue a reg v r hp ⟨hbound, haddr⟩ hw rfl
  · exact .refused _ st hp (admission_isRefusal ha) rfl
  · exact .held hp rfl
  · cases hph : s.phase <;> simp only [hph, writeContinued, reduceCtorEq] at hk
    injection hk with hk; subst hk
    cases d with
    | ok b0 b1 =>
      injection h with h
      exact .writeDone reg v r b0 b1 later hph hr hb hd h.symm
    | err e => exact .failed _ e later (isWait_of hph rfl) hb hd (failTransport_next h)

theorem execWrite_cases {reg : RegAddr} {v : Value} {s t : State} (h : execWrite reg v s = .next t) :
    SeqCase s t := by
  refine write_cases (fun ha => ?_) h
  rw [admit_write] at ha
  cases hb : s.bound <;> cases hm : mappedReg reg <;> simp [hb, hm] at ha
  exact ⟨rfl, .inl ⟨rfl, hm⟩⟩

theorem execSetWiper0_cases {v : Value} {s t : State} (h : execSetWiper0 v s = .next t) : SeqCase s t :=
  write_cases (fun ha => ⟨by simpa using ha, .inr (.inl ⟨rfl, rfl⟩)⟩) h

theorem execSetWiper1_cases {v : Value} {s t : State} (h : execSetWiper1 v s = .next t) : SeqCase s t :=
  write_cases (fun ha => ⟨by simpa using ha, .inr (.inr ⟨rfl, rfl⟩)⟩) h

theorem execRead_cases {reg : RegAddr} {s t : State} (h : execRead reg s = .next t) : SeqCase s t := by
  rcases operate_cases h with ⟨hp, ha, hb⟩ | ⟨st, hp, ha, rfl⟩ | ⟨hp, rfl⟩ | ⟨k, d, later, hp, hk, hr, hb, hd, h⟩
  · rw [admit_read] at ha
    obtain ⟨a, c, haddr, hc, rfl⟩ := issueRead_next hb
    injection hc with hc; subst hc
    have hok : s.bound = true ∧ mappedReg reg = true := by
      revert ha; cases s.bound <;> cases mappedReg reg <;> simp
    exact .readIssue a reg hp ⟨hok.1, haddr⟩ hok.2 rfl
  · exact .refused _ st hp (admission_isRefusal ha) rfl
  · exact .held hp rfl
  · cases hph : s.phase <;> simp only [hph, readContinued, reduceCtorEq] at hk
    injection hk with hk; subst hk
    cases d with
    | ok r0 r1 =>
      injection h with h
      exact .readDone reg r0 r1 later hph hr hb hd h.symm
    | err e => exact .failed _ e later (isWait_of hph rfl) hb hd (failTransport_next h)

theorem execConfigure_cases {c : Tcon} {s t : State} (h : execConfigure c s = .next t) : SeqCase s t := by
  rcases operate_cases h with ⟨hp, ha, hb⟩ | ⟨st, hp, ha, rfl⟩ | ⟨hp, rfl⟩ | ⟨k, d, later, hp, hk, hr, hb, hd, h⟩
  · obtain ⟨a, c', d, haddr, hc, hd, rfl⟩ := issueWrite_next hb
    injection hc with hc; injection hd with hd; subst hc hd
    exact .configureIssue a c hp ⟨by simpa using ha, haddr⟩ rfl
  · exact .refused _ st hp (admission_isRefusal ha) rfl
  · exact .held hp rfl
  · cases hph : s.phase <;> simp only [hph, configureContinued, reduceCtorEq] at hk <;>
      injection hk with hk <;> subst hk
    · cases d with
      | ok b0 b1 =>
        obtain ⟨a, c', haddr, hc, rfl⟩ := issueRead_next h
        injection hc with hc; subst hc
        exact .configureWritten a c b0 b1 later hph hr hb hd haddr rfl
      | err e => exact .failed _ e later (isWait_of hph rfl) hb hd (failTransport_next h)
    · cases d with
      | ok r0 r1 =>
        obtain ⟨want, hw, h⟩ := withValue_next h
        injection h with h
        exact .configureRead c want r0 r1 later hph hr hb hd hw h.symm
      | err e => exact .failed _ e later (isWait_of hph rfl) hb hd (failTransport_next h)

/-! ### The step -/

/-- A request operation's course. -/
theorem exec_request_cases {r : Request} {i : Instr} {s t : State} (hd : decodeRequest r = .ok i)
    (h : exec i s = .next t) : SeqCase s t := by
  rcases decodeRequest_ok hd with ⟨a, rfl, -⟩ | ⟨reg, v, rfl, -⟩ | ⟨reg, rfl, -⟩ | ⟨c, rfl, -⟩ | ⟨v, rfl, -⟩ | ⟨v, rfl, -⟩
  · exact execProbe_cases h
  · exact execWrite_cases h
  · exact execRead_cases h
  · exact execConfigure_cases h
  · exact execSetWiper0_cases h
  · exact execSetWiper1_cases h

theorem acceptWord_cases {w : BitVec 32} {s t : State} (hp : s.phase = .idle) (h : acceptWord exec w s = .next t) :
    SeqCase s t := by
  unfold acceptWord at h
  cases hd : decodeRequest (unpackRequest w) with
  | ok i => simp only [hd] at h; exact exec_request_cases hd h
  | error e =>
    simp only [hd] at h; injection h with h
    exact .refused (unpackRequest w) .refBadForm hp rfl h.symm

theorem resume_cases {s t : State} (h : resume exec s = .next t) : SeqCase s t := by
  obtain ⟨r, -, h⟩ := withValue_next h
  cases hd : decodeRequest r with
  | ok i => simp only [hd] at h; exact exec_request_cases hd h
  | error e => simp only [hd] at h; cases h

/-! ### ENC and TCU -/

@[simp] theorem andThen_next (s : State) (k : State → Result) : andThen (.next s) k = k s := rfl

/-- Two parts in a row answer a state exactly when the first answers one from which the second answers it. -/
theorem andThen_eq_next {r : Result} {k : State → Result} {t : State} (h : andThen r k = .next t) :
    ∃ u, r = .next u ∧ k u = .next t := by
  cases r with
  | next u => exact ⟨u, rfl, h⟩
  | fault f => cases h
  | refused q => cases h

/-- ENC packs the operands of a decoded command byte into that byte again (R92, R105). -/
theorem exec_decodeCmd (b : Byte) (s : State) : exec (decodeCmd b) s = .next (setEncOut (some b) s) := by
  have key : ∀ (op : CmdOp) (a m : Nat), exec (commandOf op a m) s = encResult (enc a op m) s := by
    intro op a m; cases op <;> rfl
  unfold decodeCmd
  rw [key, enc_eq_encodeCmd, encodeCmd, opCode_opOfCode]
  simp only [BitVec.ofNat_toNat, BitVec.setWidth_eq, cmdAddr, cmdOpBits, cmdMsb, byte_eq_fields]
  rfl

/-- All that ENC does in a step. -/
theorem encStep_eq (s : State) : encStep s = .next (setEncOut s.encIn.head? (setEncIn s.encIn.tail s)) := by
  unfold encStep encPort
  cases h : s.encIn with
  | nil =>
    obtain ⟨⟩ := s; cases h; rfl
  | cons b later => exact exec_decodeCmd b _

theorem whenZero_ok {zero : Bool} {i j : Instr} (h : whenZero zero i = .ok j) : zero = true ∧ j = i := by
  cases zero with
  | true => exact ⟨rfl, by injection h with h; exact h.symm⟩
  | false => cases h

/-- The three set operations of TCU, on values with zeros above the nine bits. -/
theorem rawOr (t m : Tcon) : (0#7 ++ t) ||| (0#7 ++ m) = tconToRaw (t ||| m) := by
  rw [← tconToRaw_eq_append, ← tconToRaw_eq_append]; unfold tconToRaw; ext i hi; simp

theorem rawAnd (t m : Tcon) : (0#7 ++ t) &&& (0#7 ++ m) = tconToRaw (t &&& m) := by
  rw [← tconToRaw_eq_append, ← tconToRaw_eq_append]; unfold tconToRaw; ext i hi; simp

theorem rawAndNot (t m : Tcon) : (0#7 ++ t) &&& ~~~(0#7 ++ m) = tconToRaw (t &&& ~~~m) := by
  rw [← tconToRaw_eq_append, ← tconToRaw_eq_append]; unfold tconToRaw; ext i hi; simp; grind

theorem raw_injective (t m : Tcon) : (0#7 ++ t : Value) = 0#7 ++ m ↔ t = m :=
  ⟨fun h => by have := congrArg dataTcon h; simpa using this, fun h => by rw [h]⟩

theorem rawLow (v : Value) : v &&& 0x01FF#16 = tconToRaw (dataTcon v) := by
  apply BitVec.eq_of_toNat_eq
  have h := Nat.and_two_pow_sub_one_eq_mod v.toNat 9
  simp only [tconToRaw, dataTcon, BitVec.toNat_and, BitVec.toNat_setWidth, BitVec.extractLsb'_toNat, BitVec.toNat_ofNat]
  simp at h ⊢
  omega

/-- The sixteen function codes. -/
theorem fn_cases (x : BitVec 4) : x = 0x0#4 ∨ x = 0x1#4 ∨ x = 0x2#4 ∨ x = 0x3#4 ∨ x = 0x4#4 ∨ x = 0x5#4 ∨ x = 0x6#4 ∨
    x = 0x7#4 ∨ x = 0x8#4 ∨ x = 0x9#4 ∨ x = 0xA#4 ∨ x = 0xB#4 ∨ x = 0xC#4 ∨ x = 0xD#4 ∨ x = 0xE#4 ∨ x = 0xF#4 := by
  revert x; decide

/-- A word at TCU's port selects a function exactly when it is not reserved. -/
theorem decodeTcu_error_iff (c : TcuCall) : (∃ e, decodeTcu c.fn c.a c.b = .error e) ↔ TcuReserved c := by
  obtain ⟨fn, a, b⟩ := c
  have key : ∀ (z : Bool) (i : Instr), (∃ e, whenZero z i = .error e) ↔ z = false := by
    intro z i; cases z
    · exact ⟨fun _ => rfl, fun _ => ⟨_, rfl⟩⟩
    · constructor
      · rintro ⟨_, h⟩; cases h
      · intro h; cases h
  rcases fn_cases fn with rfl | rfl | rfl | rfl | rfl | rfl | rfl | rfl | rfl | rfl | rfl | rfl | rfl | rfl | rfl | rfl
  case' inl | inr.inl | inr.inr.inl =>
    have : a.extractLsb' 9 7 ≠ 0#7 → a ≠ 0#16 := fun h ha => h (by rw [ha]; rfl)
  all_goals simp only [decodeTcu, TcuReserved]
  all_goals first
    | (refine (key _ _).trans ?_; simp [dataAboveTcon]; try grind)
    | simp

/-- A function that a word selects drives TCU's output with that word's answer, and does nothing else. -/
theorem exec_decodeTcu {c : TcuCall} {i : Instr} (h : decodeTcu c.fn c.a c.b = .ok i) (s : State) :
    exec i s = .next (setTcuOut (some (tcuAnswer c)) s) := by
  obtain ⟨fn, a, b⟩ := c
  have wide : dataAboveTcon a = 0#7 → ∃ t : Tcon, a = 0#7 ++ t :=
    fun h => ⟨dataTcon a, (zeroExtended_dataTcon a h).symm⟩
  have out : ∀ {x y : TcuResult}, x = y →
      (.next (setTcuOut (some x) s) : Result) = .next (setTcuOut (some y) s) := fun h => by rw [h]
  rcases fn_cases fn with rfl | rfl | rfl | rfl | rfl | rfl | rfl | rfl | rfl | rfl | rfl | rfl | rfl | rfl | rfl | rfl <;>
    first
      | cases h
      | obtain ⟨hz, rfl⟩ := whenZero_ok h
  all_goals dsimp only at hz ⊢
  · exact out rfl
  · exact out rfl
  · exact out rfl
  · obtain ⟨t, rfl⟩ := wide (by simpa using hz)
    rw [show dataTcon (0#7 ++ t) = t from dataTcon_zeroExtended t]
    exact out (congrArg TcuResult.y (rawOr t b).symm)
  · obtain ⟨t, rfl⟩ := wide (by simpa using hz)
    rw [show dataTcon (0#7 ++ t) = t from dataTcon_zeroExtended t]
    exact out (congrArg TcuResult.y (rawAndNot t b).symm)
  · obtain ⟨t, rfl⟩ := wide (by simpa using hz)
    rw [show dataTcon (0#7 ++ t) = t from dataTcon_zeroExtended t]
    exact out (congrArg TcuResult.f (by rw [rawAnd, tconToRaw_eq_append]; simp only [raw_injective]; rfl))
  · obtain ⟨t, rfl⟩ := wide (by simpa using hz)
    rw [show dataTcon (0#7 ++ t) = t from dataTcon_zeroExtended t]
    exact out (congrArg TcuResult.y (rawOr t b).symm)
  · obtain ⟨t, rfl⟩ := wide (by simpa using hz)
    rw [show dataTcon (0#7 ++ t) = t from dataTcon_zeroExtended t]
    exact out (congrArg TcuResult.y (rawAnd t b).symm)
  · exact out (congrArg TcuResult.y (rawLow a).symm)
  · obtain ⟨t, rfl⟩ := wide (by simpa using (Bool.and_eq_true_iff.mp hz).1)
    rw [show dataTcon (0#7 ++ t) = t from dataTcon_zeroExtended t]
    exact out (congrArg TcuResult.y (tconToRaw_eq_append t))
  · obtain ⟨t, rfl⟩ := wide (by simpa using hz)
    rw [show dataTcon (0#7 ++ t) = t from dataTcon_zeroExtended t]
    exact out (congrArg TcuResult.f (by simp only [raw_injective]; rfl))

/-- A word that is not reserved selects a function. -/
theorem decodeTcu_ok {c : TcuCall} (h : ¬TcuReserved c) : ∃ i, decodeTcu c.fn c.a c.b = .ok i := by
  cases hd : decodeTcu c.fn c.a c.b with
  | ok i => exact ⟨i, rfl⟩
  | error e => exact absurd ((decodeTcu_error_iff c).mp ⟨e, hd⟩) h

theorem runTcuCall_ok {c : TcuCall} (h : ¬TcuReserved c) (s : State) :
    runTcuCall exec c s = .next (setTcuOut (some (tcuAnswer c)) s) := by
  obtain ⟨i, hi⟩ := decodeTcu_ok h
  simp only [runTcuCall, hi]
  exact exec_decodeTcu hi s

theorem runTcuCall_refused {c : TcuCall} (h : TcuReserved c) (s : State) :
    runTcuCall exec c s = .refused .tcuNoFunction := by
  obtain ⟨e, he⟩ := (decodeTcu_error_iff c).mpr h
  simp only [runTcuCall, he]

/-- All that TCU does in a step it does not refuse. -/
theorem tcuStep_eq {s : State} (h : TcuPortOk s) :
    tcuStep s = .next (setTcuOut (s.tcuIn.head?.map tcuAnswer) (setTcuIn s.tcuIn.tail s)) := by
  unfold tcuStep tcuPort
  cases hc : s.tcuIn with
  | nil => obtain ⟨⟩ := s; cases hc; rfl
  | cons c later => exact runTcuCall_ok (h c later hc) _

theorem tcuStep_refused {s : State} {c : TcuCall} {later : List TcuCall} (hc : s.tcuIn = c :: later)
    (h : TcuReserved c) : tcuStep s = .refused .tcuNoFunction := by
  simp only [tcuStep, tcuPort, hc]
  exact runTcuCall_refused h _

/-! ### The step -/

/-- A step that TCU does not refuse is SEQ's, once the units have answered. -/
theorem step_eq {s : State} (h : TcuPortOk s) : step s = seqOrReset (afterUnits s) := by
  unfold step
  rw [encStep_eq, andThen_next, tcuStep_eq (by exact h)]
  rfl

/-- A reserved word at TCU's port is refused. -/
theorem step_refused {s : State} {c : TcuCall} {later : List TcuCall} (hc : s.tcuIn = c :: later)
    (h : TcuReserved c) : step s = .refused .tcuNoFunction := by
  unfold step
  rw [encStep_eq, andThen_next, tcuStep_refused (c := c) (later := later) (by exact hc) h]
  rfl

theorem tcuPortOk_or (s : State) : TcuPortOk s ∨ ∃ c later, s.tcuIn = c :: later ∧ TcuReserved c := by
  by_cases h : TcuPortOk s
  · exact .inl h
  · unfold TcuPortOk at h
    push Not at h
    exact .inr h

/-- A step that answers a state has met no reserved word at TCU's port. -/
theorem tcuPortOk_of_next {s t : State} (h : step s = .next t) : TcuPortOk s := by
  rcases tcuPortOk_or s with hok | ⟨c, later, hc, hr⟩
  · exact hok
  · rw [step_refused hc hr] at h; cases h

/-- SEQ's part of a step. -/
theorem seqOrReset_cases {s t : State} (h : seqOrReset s = .next t) : StepCase s t := by
  unfold seqOrReset at h
  by_cases hl : s.resetLine = true
  · rw [if_pos hl] at h; injection h with h
    exact .reset hl h.symm
  · rw [if_neg hl] at h
    rw [Bool.not_eq_true] at hl
    unfold seqStep at h
    split at h
    · next hp =>
      split at h
      · next w later hpres => exact .accepted hl w later hp hpres (acceptWord_cases hp h)
      · injection h with h; exact .waiting hl h.symm
    · next hp =>
      rcases respStep_cases s with ⟨-, hr⟩ | ⟨n, hn, hr⟩ <;> rw [hr] at h <;> injection h with h
      · exact .waiting hl h.symm
      · exact .taken hl n hp hn h.symm
    all_goals next hp => exact .continued hl (isWait_of hp rfl) (resume_cases h)

/-- Everything a step can do. -/
theorem step_cases {s t : State} (h : step s = .next t) : StepCase (afterUnits s) t :=
  seqOrReset_cases (by rw [← step_eq (tcuPortOk_of_next h)]; exact h)

/-! ### Which part of the machine a step is -/

theorem step_reset {s : State} (hl : s.resetLine = true) (h : TcuPortOk s) :
    step s = .next (resetBlock (afterUnits s)) := by
  rw [step_eq h]; unfold seqOrReset; rw [if_pos (by exact hl)]

/-- When the reset line is low and TCU refuses nothing, a step is SEQ's. -/
theorem step_of_seqTurn {s : State} (h : SeqTurn s) : step s = seqStep (afterUnits s) := by
  rw [step_eq h.2]; unfold seqOrReset; rw [if_neg (by simp [h.1])]

/-- In `IDLE` a request word at the port is accepted. -/
theorem step_of_presents {w : BitVec 32} {later : List (BitVec 32)} {s : State} (hph : s.phase = .idle)
    (h : Presents w later s) : step s = acceptWord exec w (setPresented later (afterUnits s)) := by
  rw [step_of_seqTurn h.1]
  simp only [seqStep, afterUnits_phase, afterUnits_presented, hph, h.2]

/-- In `RESP` SEQ's step is the taking of the response. -/
theorem seqStep_of_resp {s : State} (h : s.phase = .resp) : seqStep s = respStep s := by
  unfold seqStep
  split
  · next hp => rw [h] at hp; cases hp
  · rfl
  all_goals next hp => rw [h] at hp; cases hp

/-- In a wait value SEQ's step is `resume`. -/
theorem seqStep_of_wait {s : State} (h : s.phase.isWait = true) : seqStep s = resume exec s := by
  unfold seqStep
  split
  · next hp => rw [hp] at h; cases h
  · next hp => rw [hp] at h; cases h
  all_goals rfl

theorem resume_of_request {s : State} {r : Request} {i : Instr} (hr : s.req = some r) (hd : decodeRequest r = .ok i) :
    resume exec s = exec i s := by
  simp [resume, hr, hd]

/-! ### SEQ refuses nothing -/

theorem withValue_not_refused {α : Type} {q : Refusal} {r : RegName} {v : Option α} {k : α → Result}
    (h : ∀ x, k x ≠ .refused q) : withValue r v k ≠ .refused q := by
  cases v with
  | none => simp
  | some x => exact h x

theorem issueWrite_not_refused (q : Refusal) (wait : Phase) (s : State) : issueWrite wait s ≠ .refused q :=
  withValue_not_refused fun _ => withValue_not_refused fun _ => withValue_not_refused fun _ => by simp

theorem issueRead_not_refused (q : Refusal) (wait : Phase) (s : State) : issueRead wait s ≠ .refused q :=
  withValue_not_refused fun _ => withValue_not_refused fun _ => by simp

/-- An operation refuses nothing if neither its beginning nor any continuation does. -/
theorem operate_not_refused {q : Refusal} {r : Request} {begin : State → Result}
    {continued : Phase → Option (Draw → State → Result)} {s : State} (hb : ∀ u, begin u ≠ .refused q)
    (hc : ∀ ph k, continued ph = some k → ∀ d u, k d u ≠ .refused q) : operate r begin continued s ≠ .refused q := by
  unfold operate accept awaitDraw
  repeat' split
  all_goals first | exact hb _ | exact hc _ _ (by assumption) _ _ | simp

theorem finishWrite_not_refused (q : Refusal) (reg : RegAddr) (v : Value) (d : Draw) (u : State) :
    finishWrite reg v d u ≠ .refused q := by cases d <;> simp [finishWrite, failTransport]

theorem writeContinued_not_refused {q : Refusal} {reg : RegAddr} {v : Value} (ph : Phase) (k : Draw → State → Result)
    (h : writeContinued reg v ph = some k) (d : Draw) (u : State) : k d u ≠ .refused q := by
  cases ph <;> cases h
  exact finishWrite_not_refused q reg v d u

/-- A request operation refuses nothing: what the spec calls a refusal is a response. -/
theorem exec_request_not_refused {q : Refusal} {r : Request} {i : Instr} {s : State}
    (hd : decodeRequest r = .ok i) : exec i s ≠ .refused q := by
  rcases decodeRequest_ok hd with ⟨a, rfl, -⟩ | ⟨reg, v, rfl, -⟩ | ⟨reg, rfl, -⟩ | ⟨c, rfl, -⟩ | ⟨v, rfl, -⟩ | ⟨v, rfl, -⟩
  · refine operate_not_refused (fun u => by simp [beginProbe]) fun ph k h d u => ?_
    cases ph <;> cases h
    cases d <;> simp [finishProbe, failTransport]
  · exact operate_not_refused (fun u => issueWrite_not_refused q _ _) writeContinued_not_refused
  · refine operate_not_refused (fun u => issueRead_not_refused q _ _) fun ph k h d u => ?_
    cases ph <;> cases h
    cases d <;> simp [finishRead, failTransport]
  · refine operate_not_refused (fun u => issueWrite_not_refused q _ _) fun ph k h d u => ?_
    cases ph <;> cases h
    · cases d
      · exact issueRead_not_refused q _ _
      · simp [finishConfigureWrite, failTransport]
    · cases d
      · exact withValue_not_refused fun _ => by simp
      · simp [finishConfigureRead, failTransport]
  · exact operate_not_refused (fun u => issueWrite_not_refused q _ _) writeContinued_not_refused
  · exact operate_not_refused (fun u => issueWrite_not_refused q _ _) writeContinued_not_refused

/-- SEQ's part of a step refuses nothing. -/
theorem seqOrReset_not_refused (q : Refusal) (s : State) : seqOrReset s ≠ .refused q := by
  have resumes : resume exec s ≠ .refused q := withValue_not_refused fun r => by
    cases hd : decodeRequest r with
    | ok i => exact exec_request_not_refused hd
    | error e => simp
  have accepts : ∀ w u, acceptWord exec w u ≠ .refused q := by
    intro w u
    unfold acceptWord
    cases hd : decodeRequest (unpackRequest w) with
    | ok i => exact exec_request_not_refused hd
    | error e => simp
  unfold seqOrReset seqStep respStep
  repeat' split
  all_goals first | exact resumes | exact accepts _ _ | simp

/-! ### Runs -/

theorem reaches_zero (s : State) : Reaches 0 s s := rfl

theorem run_succ {M : Host.Core} {n : Nat} {s u : M.State} (h : M.step s = .next u) : M.run (n + 1) s = M.run n u := by
  rw [Host.Core.run.eq_2, h]

/-- A run begins with a step. -/
theorem reaches_succ {n : Nat} {s u t : State} (h : step s = .next u) (hr : Reaches n u t) : Reaches (n + 1) s t :=
  (run_succ (M := Sys2Proof.core) h).trans hr

end Sys2Proof.Machine
end

