-- ==== Sys2Proof/Tests/Slice0.lean ====
section
/-! SUPPORT. Tests/Slice0.lean: the model's own tests, with expected values from the tables and examples of
spec/95_test_vectors.md, spec/30_encoding.md R91 and the examples of R100 to R169, and, for every statement with
hypotheses, a witness that something meets them. -/

namespace Sys2Proof.Tests

open Sys2Proof.Machine

/-! ### Small states -/

/-- Unbound and idle, with a request word at the port. -/
def unbound (w : BitVec 32) : State := { State.reset with presented := [w] }

/-- Bound to 0x2C and idle, with a request word at the port and outcomes to come. -/
def bound (w : BitVec 32) (draws : List Draw) : State :=
  { State.reset with bound := true, busaddr := some 0x2C#7, presented := [w], answers := draws }

/-- The state a step answers; the state before it where the step stops. -/
def after (s : State) : State :=
  match step s with
  | .next t => t
  | .fault _ => s
  | .refused _ => s

/-- The status and data of the response presented. -/
def response (s : State) : Option (Status × Value) := s.rsp.map fun p => (p.status, p.data)

/-- The result of a TCU function called on its port from reset. -/
def tcuCall (fn : BitVec 4) (a : Value) (b : Tcon) : Option TcuResult :=
  (after { State.reset with tcuIn := [⟨fn, a, b⟩] }).tcuOut

/-! ### WellFormed: an ill-formed term for each check -/

theorem test_wellFormed_accepts : wellFormed (.cmdW 15 3) = true := by decide
theorem test_addr_too_wide_cmdW : wellFormed (.cmdW 16 0) = false := by decide
theorem test_msb_too_wide_cmdW : wellFormed (.cmdW 0 4) = false := by decide
theorem test_addr_too_wide_cmdInc : wellFormed (.cmdInc 16 3) = false := by decide
theorem test_msb_too_wide_cmdInc : wellFormed (.cmdInc 15 4) = false := by decide
theorem test_addr_too_wide_cmdDec : wellFormed (.cmdDec 0x14 0) = false := by decide
theorem test_msb_too_wide_cmdDec : wellFormed (.cmdDec 0 5) = false := by decide
theorem test_addr_too_wide_cmdRd : wellFormed (.cmdRd 16 0) = false := by decide
theorem test_msb_too_wide_cmdRd : wellFormed (.cmdRd 4 4) = false := by decide

/-! ### Decoding: a word of each instruction, written out from its encoding -/

/-- `aaaa00mm`, R101: a = 0x4, m = 0b01. -/
theorem test_decode_cmdW : decode (.cmd 0b01000001#8) = .ok (.cmdW 4 1) := by rfl
/-- `aaaa01mm`, R102: a = 0x1, m = 0b10. -/
theorem test_decode_cmdInc : decode (.cmd 0b00010110#8) = .ok (.cmdInc 1 2) := by rfl
/-- `aaaa10mm`, R103: a = 0xF, m = 0b00. -/
theorem test_decode_cmdDec : decode (.cmd 0b11111000#8) = .ok (.cmdDec 15 0) := by rfl
/-- `aaaa11mm`, R104: a = 0x4, m = 0b00. -/
theorem test_decode_cmdRd : decode (.cmd 0b01001100#8) = .ok (.cmdRd 4 0) := by rfl
/-- R91: `PROBE 0x2C`. -/
theorem test_decode_probe : decode (.req 0b000_0000_00_0101100_0000000000000000#32) = .ok (.probe 0x2C#7) := by rfl
/-- R91: `WRITE Control, 0x01FF`. -/
theorem test_decode_write :
    decode (.req 0b001_0100_00_0000000_0000000111111111#32) = .ok (.write 0x4#4 0x01FF#16) := by rfl
/-- R91: `READ Wiper1`. -/
theorem test_decode_read : decode (.req 0b010_0001_00_0000000_0000000000000000#32) = .ok (.read 0x1#4) := by rfl
/-- R91: `CONFIGURE 0x00F`. -/
theorem test_decode_configure :
    decode (.req 0b011_0000_00_0000000_0000000000001111#32) = .ok (.configure 0x00F#9) := by rfl
/-- R91: `SET_WIPER0 0x0200`. -/
theorem test_decode_setWiper0 :
    decode (.req 0b100_0000_00_0000000_0000001000000000#32) = .ok (.setWiper0 0x0200#16) := by rfl
/-- R91: `SET_WIPER1 0x03FF`. -/
theorem test_decode_setWiper1 :
    decode (.req 0b101_0000_00_0000000_0000001111111111#32) = .ok (.setWiper1 0x03FF#16) := by rfl
/-- R87, `fn` 0x0 to 0xA. -/
theorem test_decode_tcuEmpty : decode (.tcu 0b0000#4 0#16 0#9) = .ok .tcuEmpty := by rfl
theorem test_decode_tcuAllR0 : decode (.tcu 0b0001#4 0#16 0#9) = .ok .tcuAllR0 := by rfl
theorem test_decode_tcuAllR1 : decode (.tcu 0b0010#4 0#16 0#9) = .ok .tcuAllR1 := by rfl
theorem test_decode_tcuSet : decode (.tcu 0b0011#4 0x000F#16 0x100#9) = .ok (.tcuSet 0x00F#9 0x100#9) := by rfl
theorem test_decode_tcuClear : decode (.tcu 0b0100#4 0x01FF#16 0x00F#9) = .ok (.tcuClear 0x1FF#9 0x00F#9) := by rfl
theorem test_decode_tcuTest : decode (.tcu 0b0101#4 0x0007#16 0x00F#9) = .ok (.tcuTest 0x007#9 0x00F#9) := by rfl
theorem test_decode_tcuUnion : decode (.tcu 0b0110#4 0x000F#16 0x0F0#9) = .ok (.tcuUnion 0x00F#9 0x0F0#9) := by rfl
theorem test_decode_tcuIntersect :
    decode (.tcu 0b0111#4 0x00FF#16 0x1F0#9) = .ok (.tcuIntersect 0x0FF#9 0x1F0#9) := by rfl
theorem test_decode_tcuFromRaw : decode (.tcu 0b1000#4 0xFE0F#16 0#9) = .ok (.tcuFromRaw 0xFE0F#16) := by rfl
theorem test_decode_tcuToRaw : decode (.tcu 0b1001#4 0x01FF#16 0#9) = .ok (.tcuToRaw 0x1FF#9) := by rfl
theorem test_decode_tcuEq : decode (.tcu 0b1010#4 0x000F#16 0x10F#9) = .ok (.tcuEq 0x00F#9 0x10F#9) := by rfl

/-- T-RQ-5, T-RQ-6, T-RQ-7 and T-TC-26: words that spell nothing, each rejected by name. -/
theorem test_decode_rejects :
    decode (.req 0xC0000000#32) = .error .reservedOpc ∧ decode (.req 0x60000200#32) = .error .mustBeZero ∧
    decode (.req 0x20800200#32) = .error .mustBeZero ∧ decode (.tcu 0xB#4 0#16 0#9) = .error .reservedFn ∧
    decode (.tcu 0x3#4 0x0200#16 0#9) = .error .operandNotZero := ⟨rfl, rfl, rfl, rfl, rfl⟩

/-- R91's request words, from the instruction (R80: `opc << 29 | reg << 25 | rsv << 23 | baddr << 16 | data`). -/
theorem test_encode_requests :
    encode (.write 0x4#4 0x01FF#16) = .req 0x280001FF#32 ∧ encode (.configure 0x00F#9) = .req 0x6000000F#32 ∧
    encode (.setWiper1 0x03FF#16) = .req 0xA00003FF#32 := ⟨rfl, rfl, rfl⟩

/-- The host's view of the table's words, on the three widths. -/
theorem test_decodeTableWord :
    decodeTableWord 32 0x42000000 = some (.read 0x1#4) ∧ decodeTableWord 8 0x4C = some (.cmdRd 4 0) ∧
    decodeTableWord 8 0x0C = some (.cmdRd 0 0) ∧ decodeTableWord 4 0x8 = some (.tcuFromRaw 0#16) ∧
    decodeTableWord 8 0xA = some (.tcuEq 0#9 0#9) ∧ decodeTableWord 4 0xB = none := ⟨rfl, rfl, rfl, rfl, rfl, rfl⟩

/-! ### One step of each instruction (spec/95_test_vectors.md) -/

/-- T-ENC-2 and T-ENC-1: out-of-range operands are masked. -/
theorem test_cmdW_masks :
    (exec (.cmdW 0x4 5) State.reset = .next { State.reset with encOut := some 0x41#8 }) ∧
    (exec (.cmdW 0x14 0) State.reset = .next { State.reset with encOut := some 0x40#8 }) := ⟨rfl, rfl⟩
/-- T-ENC-5. -/
theorem test_cmdInc_masks :
    exec (.cmdInc 0x10 0x1F) State.reset = .next { State.reset with encOut := some 0x07#8 } := rfl
/-- R103's example, as a step on the byte 0x08. -/
theorem test_cmdDec_step : (after { State.reset with encIn := [0x08#8] }).encOut = some 0x08#8 := by decide
/-- T-ENC-3. -/
theorem test_cmdRd_step : (after { State.reset with encIn := [0xFF#8] }).encOut = some 0xFF#8 := by decide

/-- P4, step 1 first half: the probe read goes to the address the request carries. -/
theorem test_probe_issues : (after (unbound 0x002C0000#32)).bus = some (.busRead 0x2C#7 1) := by decide
/-- R164's example: any reply byte binds. -/
theorem test_probe_binds :
    (after { after (unbound 0x002C0000#32) with answers := [.ok 0x5A#8 0#8] }).busaddr = some 0x2C#7 := by decide
/-- T-RQ-11: `WRITE Control, 0x01FF` sends [0x41, 0xFF]. -/
theorem test_write_frame : (after (bound 0x280001FF#32 [])).bus = some (.busWrite 0x2C#7 [0x41#8, 0xFF#8]) := by decide
/-- T-RQ-7: a reserved bit is refused before anything else. -/
theorem test_write_bad_form : response (after (bound 0x20800200#32 [])) = some (.refBadForm, 0#16) := by decide
/-- P2, step 3: the reply is returned unmasked. -/
theorem test_read_unmasked :
    response (after (after (bound 0x48000000#32 [.ok 0x40#8 0x0F#8]))) = some (.ok, 0x400F#16) := by decide
/-- T-RQ-4 and T-RQ-10: the order of the checks. -/
theorem test_read_refusals :
    response (after (bound 0x44000000#32 [])) = some (.refBadRegister, 0#16) ∧
    response (after (unbound 0x44000000#32)) = some (.refNotBound, 0#16) := by decide
/-- T-CFG-4: reply bits 15..9 never mismatch. -/
theorem test_configure_drops_high_bits :
    response (after (after (after (bound 0x600001FF#32 [.ok 0#8 0#8, .ok 0xFF#8 0xFF#8])))) = some (.ok, 0#16) := by
  decide
/-- T-CFG-6: a lost GCEN is a mismatch. -/
theorem test_configure_mismatch :
    response (after (after (after (bound 0x60000100#32 [.ok 0#8 0#8, .ok 0x00#8 0x00#8])))) =
      some (.configMismatch, 0#16) := by decide
/-- P1, step 2. -/
theorem test_setWiper0_frame :
    (after (bound 0x80000200#32 [])).bus = some (.busWrite 0x2C#7 [0x02#8, 0x00#8]) := by decide
/-- P1, step 4: truncation to ten bits. -/
theorem test_setWiper1_truncates :
    (after (bound 0xA00007A5#32 [])).bus = some (.busWrite 0x2C#7 [0x13#8, 0xA5#8]) := by decide

theorem test_tcuEmpty : tcuCall 0x0#4 0#16 0#9 = some (.y 0x0000#16) := by decide
theorem test_tcuAllR0 : tcuCall 0x1#4 0#16 0#9 = some (.y 0x000F#16) := by decide
theorem test_tcuAllR1 : tcuCall 0x2#4 0#16 0#9 = some (.y 0x00F0#16) := by decide
/-- T-TC-5. -/
theorem test_tcuSet : tcuCall 0x3#4 0x000F#16 0x100#9 = some (.y 0x010F#16) := by decide
/-- T-TC-7. -/
theorem test_tcuClear : tcuCall 0x4#4 0x01FF#16 0x00F#9 = some (.y 0x01F0#16) := by decide
/-- T-TC-11 and T-TC-14. -/
theorem test_tcuTest :
    tcuCall 0x5#4 0x0007#16 0x00F#9 = some (.f false) ∧ tcuCall 0x5#4 0x0000#16 0x000#9 = some (.f true) := by decide
/-- T-TC-15. -/
theorem test_tcuUnion : tcuCall 0x6#4 0x000F#16 0x0F0#9 = some (.y 0x00FF#16) := by decide
/-- T-TC-17. -/
theorem test_tcuIntersect : tcuCall 0x7#4 0x00FF#16 0x1F0#9 = some (.y 0x00F0#16) := by decide
/-- T-TC-21 and T-TC-23. -/
theorem test_tcuFromRaw :
    tcuCall 0x8#4 0xFE0F#16 0#9 = some (.y 0x000F#16) ∧ tcuCall 0x8#4 0x0200#16 0#9 = some (.y 0x0000#16) := by decide
/-- T-TC-24. -/
theorem test_tcuToRaw : tcuCall 0x9#4 0x01FF#16 0#9 = some (.y 0x01FF#16) := by decide
/-- T-TC-20. -/
theorem test_tcuEq : tcuCall 0xA#4 0x000F#16 0x10F#9 = some (.f false) := by decide

/-- A table word placed with `withFetchWord` runs as the first instruction after reset. -/
theorem test_withFetchWord_runs_first :
    step (State.reset.withFetchWord 32 0x002C0000) = exec (.probe 0x2C#7) State.reset ∧
    step (State.reset.withFetchWord 8 0x4C) = exec (.cmdRd 4 0) State.reset ∧
    step (State.reset.withFetchWord 4 0x1) = exec .tcuAllR0 State.reset := ⟨rfl, rfl, rfl⟩

/-! ### Witnesses: states that meet the hypotheses of the statements -/

/-- Nothing at TCU's port. -/
theorem quiet {s : State} (h : s.tcuIn = []) : TcuPortOk s := by
  intro c later hc; rw [h] at hc; cases hc

/-- Bound to 0x7F and idle. -/
def idleBound : State := { State.reset with bound := true, busaddr := some 0x7F#7 }

/-- The operation with request `r` waits in `ph` for transaction `x`, and the transport answers `d`. -/
def waiting (r : Request) (ph : Phase) (x : Txn) (d : Draw) : State :=
  { idleBound with req := some r, phase := ph, bus := some x, answers := [d] }

/-- A READ of wiper 0 in progress. -/
def reading (answers : List Draw) : State :=
  { idleBound with
    req := some (readRequest 0x0#4), phase := .rdWait, cmd := some (readCommand 0x0#4),
    bus := some (.busWriteRead 0x7F#7 (rframe 0x0#4) 2), answers := answers }

/-- A CONFIGURE of 0x1FF whose write is in progress. -/
def configuring (answers : List Draw) : State :=
  { idleBound with
    req := some (configureRequest 0x1FF#9), phase := .cfgWrWait, treq := some 0x1FF#9,
    cmd := some (writeCommand control (tconToRaw 0x1FF#9)), dlo := some (valueLow (tconToRaw 0x1FF#9)),
    bus := some (.busWrite 0x7F#7 (wframe control (tconToRaw 0x1FF#9))), answers := answers }

/-- A CONFIGURE of 0x1FF whose read-back is in progress. -/
def verifying (answers : List Draw) : State :=
  { idleBound with
    req := some (configureRequest 0x1FF#9), phase := .cfgRdWait, treq := some 0x1FF#9,
    cmd := some (readCommand control), dlo := some (valueLow (tconToRaw 0x1FF#9)),
    bus := some (.busWriteRead 0x7F#7 (rframe control) 2), answers := answers }

/-- A PROBE of 0x00 in progress. -/
def probing (answers : List Draw) : State :=
  { State.reset with
    req := some (probeRequest 0x00#7), phase := .probeWait, bus := some (.busRead 0x00#7 1), answers := answers }

/-- A WRITE of 0xFFFF to Control in progress. -/
def writing (answers : List Draw) : State :=
  { idleBound with
    req := some (writeRequest 0x4#4 0xFFFF#16), phase := .wrWait, cmd := some (writeCommand 0x4#4 0xFFFF#16),
    dlo := some (valueLow 0xFFFF#16), bus := some (.busWrite 0x7F#7 (wframe 0x4#4 0xFFFF#16)), answers := answers }

/-- A response to a READ is presented. -/
def responding (takes : Nat) : State :=
  { idleBound with
    req := some (readRequest 0x0#4), phase := .resp, rsp := some { status := .ok, data := 0x0C80#16, err := none },
    takes := takes }

theorem idleBound_invariant : Invariant idleBound := ⟨rfl, rfl, ⟨rfl, rfl, rfl, rfl⟩, rfl, rfl⟩

theorem probing_invariant (ds : List Draw) : Invariant (probing ds) :=
  ⟨rfl, ⟨rfl, rfl, rfl, rfl⟩, rfl, rfl, 0x00#7, rfl, rfl⟩

theorem writing_invariant (ds : List Draw) : Invariant (writing ds) :=
  ⟨rfl, rfl, rfl, rfl, 0x7F#7, 0x4#4, 0xFFFF#16, _, ⟨rfl, rfl⟩, rfl, .inl ⟨rfl, rfl⟩, rfl, rfl, rfl⟩

theorem reading_invariant (ds : List Draw) : Invariant (reading ds) :=
  ⟨rfl, rfl, rfl, rfl, rfl, 0x7F#7, 0x0#4, ⟨rfl, rfl⟩, rfl, rfl, rfl, rfl⟩

theorem configuring_invariant (ds : List Draw) : Invariant (configuring ds) :=
  ⟨rfl, rfl, rfl, 0x7F#7, 0x1FF#9, ⟨rfl, rfl⟩, rfl, rfl, rfl, rfl, rfl⟩

theorem verifying_invariant (ds : List Draw) : Invariant (verifying ds) :=
  ⟨rfl, rfl, rfl, 0x7F#7, 0x1FF#9, ⟨rfl, rfl⟩, rfl, rfl, rfl, rfl, rfl⟩

theorem responding_invariant (n : Nat) : Invariant (responding n) :=
  ⟨rfl, rfl, _, _, rfl, rfl, by simp, fun _ => ⟨rfl, 0x0#4, rfl⟩, by simp⟩

/-- DecodeOfEncodeIsTheInstruction, EncoderIsInjectiveAndOnto: operands at the edge of their fields. -/
theorem witness_in_range_operands : wellFormed (.cmdRd 15 3) = true ∧ (15 < 16 ∧ 0 < 16 ∧ 3 < 4 ∧ 0 < 4) := by decide

/-- DecodedWordIsTheEncoding. -/
theorem witness_word_decodes : decode (.req 0xA000FFFF#32) = .ok (.setWiper1 0xFFFF#16) := rfl

/-- EchoedFrameGivesTheValueBack. -/
theorem witness_frame_bytes : wframe 0x1#4 0x07A5#16 = [0x13#8, 0xA5#8] := by decide

/-- TcuRefusesExactlyTheReservedWords, both ways. -/
theorem witness_tcu_words :
    step { State.reset with tcuIn := [⟨0xB#4, 0#16, 0#9⟩] } = .refused .tcuNoFunction ∧
    step { State.reset with tcuIn := [⟨0xA#4, 0x0200#16, 0#9⟩] } = .refused .tcuNoFunction ∧
    step { State.reset with tcuIn := [⟨0x2#4, 0#16, 1#9⟩] } = .refused .tcuNoFunction ∧
    step { State.reset with tcuIn := [⟨0x9#4, 0#16, 1#9⟩] } = .refused .tcuNoFunction ∧
    step { State.reset with tcuIn := [⟨0x8#4, 0xFFFF#16, 0#9⟩] } =
      .next { State.reset with tcuOut := some (.y 0x01FF#16) } := ⟨rfl, rfl, rfl, rfl, rfl⟩

/-- CombinationalUnitsLeaveTheBlockAlone and UnitsAnswerInTheSameStep: in the middle of a READ. -/
theorem witness_unit_word :
    TcuPortOk { reading [] with encIn := [0x4C#8] } ∧ ∃ t, step { reading [] with encIn := [0x4C#8] } = .next t :=
  ⟨quiet rfl, _, rfl⟩

/-- StepRunsTheDecodedInstruction: a word at each port, alone and with others, and a wait value. -/
theorem witness_step_decodes :
    ({ reading [] with encIn := [0x4C#8] }.encIn = [0x4C#8] ∧ decode (.cmd 0x4C#8) = .ok (.cmdRd 4 0)) ∧
    (decode (.tcu 0x1#4 0#16 0#9) = .ok .tcuAllR0 ∧
      ∃ u, encStep { reading [] with encIn := [0x4C#8], tcuIn := [⟨0x1#4, 0#16, 0#9⟩] } = .next u) ∧
    (State.reset.resetLine = false ∧ State.reset.phase = .idle ∧ State.reset.presented = [] ∧
      State.reset.tcuIn = [] ∧ State.reset.encIn = []) ∧
    (Presents 0x002C0000#32 [] (unbound 0x002C0000#32) ∧ decode (.req 0x002C0000#32) = .ok (.probe 0x2C#7) ∧
      (unbound 0x002C0000#32).phase = .idle) ∧
    (SeqTurn (reading []) ∧ (reading []).phase.isWait = true ∧ (reading []).req = some (readRequest 0x0#4) ∧
      decodeRequest (readRequest 0x0#4) = .ok (.read 0x0#4)) :=
  ⟨⟨rfl, rfl⟩, ⟨rfl, _, rfl⟩, ⟨rfl, rfl, rfl, rfl, rfl⟩, ⟨⟨⟨rfl, quiet rfl⟩, rfl⟩, rfl, rfl⟩, ⟨rfl, quiet rfl⟩, rfl, rfl, rfl⟩

/-- AdmissionChecksInOrder: a request at the port of the idle block for each of the five clauses, the form at its
boundaries (`opc` 0b110 and `data[9]` of CONFIGURE) and the register at 0x2. -/
theorem witness_admission :
    (Presents 0xC0000000#32 [] (bound 0xC0000000#32 []) ∧ BadForm (unpackRequest 0xC0000000#32)) ∧
    BadForm (unpackRequest 0x60000200#32) ∧
    (¬BadForm (unpackRequest 0x007F0000#32) ∧ (unpackRequest 0x007F0000#32).opc = 0#3) ∧
    (¬BadForm (unpackRequest 0x44000000#32) ∧ (unpackRequest 0x44000000#32).opc ≠ 0#3) ∧
    (unpackRequest 0x44000000#32).opc = 2#3 ∧ ¬Mapped (unpackRequest 0x44000000#32).reg ∧
    (¬BadForm (unpackRequest 0x280001FF#32) ∧ (unpackRequest 0x280001FF#32).opc = 1#3 ∧
      Mapped (unpackRequest 0x280001FF#32).reg) := by
  refine ⟨⟨⟨⟨rfl, quiet rfl⟩, rfl⟩, ?_⟩, ?_, ⟨?_, ?_⟩, ⟨?_, ?_⟩, ?_, ?_, ?_, ?_, ?_⟩ <;> (try unfold BadForm) <;>
    (try unfold Mapped) <;> decide

/-- ProbeBindsTheBlock, clause by clause. -/
theorem witness_probe :
    (State.reset.phase = .idle ∧ State.reset.bound = false) ∧
    Completing (probeRequest 0x00#7) .probeWait (.ok 0xFF#8 0#8) [] (probing [.ok 0xFF#8 0#8]) ∧
    Completing (probeRequest 0x00#7) .probeWait (.err (.ofNumber 1)) [] (probing [.err (.ofNumber 1)]) ∧
    (idleBound.phase = .idle ∧ idleBound.bound = true) ∧
    (Presents 0x002C0001#32 [] (unbound 0x002C0001#32) ∧ (unpackRequest 0x002C0001#32).opc = 0#3 ∧
      (unpackRequest 0x002C0001#32).data ≠ 0#16) :=
  ⟨⟨rfl, rfl⟩, ⟨rfl, rfl, rfl, rfl⟩, ⟨rfl, rfl, rfl, rfl⟩, ⟨rfl, rfl⟩, ⟨⟨rfl, quiet rfl⟩, rfl⟩, by decide, by decide⟩

/-- WriteSendsOneFrame, clause by clause; the register at 0x4, the last mapped, and at 0x5. -/
theorem witness_write :
    (idleBound.phase = .idle ∧ BoundTo 0x7F#7 idleBound ∧ Mapped 0x4#4) ∧
    Completing (writeRequest 0x4#4 0xFFFF#16) .wrWait (.ok 0#8 0#8) [] (writing [.ok 0#8 0#8]) ∧
    Completing (writeRequest 0x4#4 0xFFFF#16) .wrWait (.err (.ofNumber 0)) [] (writing [.err (.ofNumber 0)]) ∧
    (State.reset.phase = .idle ∧ State.reset.bound = false) ∧
    (idleBound.bound = true ∧ ¬Mapped 0x5#4) ∧
    (Presents 0x20800200#32 [] (bound 0x20800200#32 []) ∧ (unpackRequest 0x20800200#32).opc = 1#3 ∧
      (unpackRequest 0x20800200#32).rsv ≠ 0#2) :=
  ⟨⟨rfl, ⟨rfl, rfl⟩, .inr (.inr rfl)⟩, ⟨rfl, rfl, rfl, rfl⟩, ⟨rfl, rfl, rfl, rfl⟩, ⟨rfl, rfl⟩,
    ⟨rfl, by unfold Mapped; decide⟩, ⟨⟨rfl, quiet rfl⟩, rfl⟩, by decide, by decide⟩

/-- ReadReturnsTheWholeReply, clause by clause; the register at 0x0 and at 0xF. -/
theorem witness_read :
    (idleBound.phase = .idle ∧ BoundTo 0x7F#7 idleBound ∧ Mapped 0x0#4) ∧
    Completing (readRequest 0x0#4) .rdWait (.ok 0xFF#8 0xFF#8) [] (reading [.ok 0xFF#8 0xFF#8]) ∧
    Completing (readRequest 0x0#4) .rdWait (.err (.ofNumber 0)) [] (reading [.err (.ofNumber 0)]) ∧
    (State.reset.phase = .idle ∧ State.reset.bound = false) ∧
    (idleBound.bound = true ∧ ¬Mapped 0xF#4) ∧
    (Presents 0x40000001#32 [] (bound 0x40000001#32 []) ∧ (unpackRequest 0x40000001#32).opc = 2#3 ∧
      (unpackRequest 0x40000001#32).data ≠ 0#16) :=
  ⟨⟨rfl, ⟨rfl, rfl⟩, .inl rfl⟩, ⟨rfl, rfl, rfl, rfl⟩, ⟨rfl, rfl, rfl, rfl⟩, ⟨rfl, rfl⟩,
    ⟨rfl, by unfold Mapped; decide⟩, ⟨⟨rfl, quiet rfl⟩, rfl⟩, by decide, by decide⟩

/-- ConfigureWritesAndVerifies, clause by clause; a read-back equal to the request in its nine bits, and one that
differs in bit 8 alone. -/
theorem witness_configure :
    (idleBound.phase = .idle ∧ BoundTo 0x7F#7 idleBound) ∧
    Completing (configureRequest 0x1FF#9) .cfgWrWait (.err (.ofNumber 7)) [] (configuring [.err (.ofNumber 7)]) ∧
    (BoundTo 0x7F#7 (configuring [.ok 0#8 0#8]) ∧
      Completing (configureRequest 0x1FF#9) .cfgWrWait (.ok 0#8 0#8) [] (configuring [.ok 0#8 0#8])) ∧
    ((verifying [.ok 0xFF#8 0xFF#8]).treq = some 0x1FF#9 ∧ (0xFF#8 ++ 0xFF#8).extractLsb' 0 9 = 0x1FF#9 ∧
      Completing (configureRequest 0x1FF#9) .cfgRdWait (.ok 0xFF#8 0xFF#8) [] (verifying [.ok 0xFF#8 0xFF#8])) ∧
    ((0x40#8 ++ 0xFF#8).extractLsb' 0 9 ≠ 0x1FF#9 ∧
      Completing (configureRequest 0x1FF#9) .cfgRdWait (.ok 0x40#8 0xFF#8) [] (verifying [.ok 0x40#8 0xFF#8])) ∧
    Completing (configureRequest 0x1FF#9) .cfgRdWait (.err (.ofNumber 7)) [] (verifying [.err (.ofNumber 7)]) ∧
    (State.reset.phase = .idle ∧ State.reset.bound = false) ∧
    (Presents 0x60000200#32 [] (bound 0x60000200#32 []) ∧ (unpackRequest 0x60000200#32).opc = 3#3 ∧
      (unpackRequest 0x60000200#32).data.extractLsb' 9 7 ≠ 0#7) :=
  ⟨⟨rfl, rfl, rfl⟩, ⟨rfl, rfl, rfl, rfl⟩, ⟨⟨rfl, rfl⟩, rfl, rfl, rfl, rfl⟩, ⟨rfl, by decide, rfl, rfl, rfl, rfl⟩,
    ⟨by decide, rfl, rfl, rfl, rfl⟩, ⟨rfl, rfl, rfl, rfl⟩, ⟨rfl, rfl⟩, ⟨⟨rfl, quiet rfl⟩, rfl⟩, by decide, by decide⟩

/-- SetWiper0WritesRegister0 and SetWiper1WritesRegister1, clause by clause (the idle states are `witness_write`'s). -/
theorem witness_setWiper :
    (∃ s, Completing (setWiper0Request 0x0400#16) .wrWait (.ok 0#8 0#8) [] s) ∧
    (∃ s, Completing (setWiper0Request 0x0400#16) .wrWait (.err (.ofNumber 0)) [] s) ∧
    (∃ s, Completing (setWiper1Request 0xFFFF#16) .wrWait (.ok 0#8 0#8) [] s) ∧
    (∃ s, Completing (setWiper1Request 0xFFFF#16) .wrWait (.err (.ofNumber 0)) [] s) ∧
    (Presents 0x82000000#32 [] (bound 0x82000000#32 []) ∧ (unpackRequest 0x82000000#32).opc = 4#3 ∧
      (unpackRequest 0x82000000#32).reg ≠ 0#4) ∧
    (Presents 0xA0010000#32 [] (bound 0xA0010000#32 []) ∧ (unpackRequest 0xA0010000#32).opc = 5#3 ∧
      (unpackRequest 0xA0010000#32).baddr ≠ 0#7) :=
  ⟨⟨waiting (setWiper0Request 0x0400#16) .wrWait (.busWrite 0x7F#7 [0x00#8, 0x00#8]) (.ok 0#8 0#8), rfl, rfl, rfl, rfl⟩,
    ⟨waiting (setWiper0Request 0x0400#16) .wrWait (.busWrite 0x7F#7 [0x00#8, 0x00#8]) (.err (.ofNumber 0)), rfl, rfl, rfl, rfl⟩,
    ⟨waiting (setWiper1Request 0xFFFF#16) .wrWait (.busWrite 0x7F#7 [0x13#8, 0xFF#8]) (.ok 0#8 0#8), rfl, rfl, rfl, rfl⟩,
    ⟨waiting (setWiper1Request 0xFFFF#16) .wrWait (.busWrite 0x7F#7 [0x13#8, 0xFF#8]) (.err (.ofNumber 0)), rfl, rfl, rfl, rfl⟩,
    ⟨⟨⟨rfl, quiet rfl⟩, rfl⟩, by decide, by decide⟩, ⟨⟨rfl, quiet rfl⟩, rfl⟩, by decide, by decide⟩

/-- CompletionsEmitTheirEvents, clause by clause, with a sink attached (the wipers' states are `witness_setWiper`'s). -/
theorem witness_completion_events :
    Completing (probeRequest 0x00#7) .probeWait (.err (.ofNumber 1)) [] (probing [.err (.ofNumber 1)]) ∧
    Completing (writeRequest 0x4#4 0xFFFF#16) .wrWait (.ok 0#8 0#8) [] (writing [.ok 0#8 0#8]) ∧
    Completing (readRequest 0x0#4) .rdWait (.ok 0xFF#8 0xFF#8) [] (reading [.ok 0xFF#8 0xFF#8]) ∧
    (BoundTo 0x7F#7 (configuring [.err (.ofNumber 7)]) ∧
      Completing (configureRequest 0x1FF#9) .cfgWrWait (.err (.ofNumber 7)) [] (configuring [.err (.ofNumber 7)])) ∧
    ((verifying [.ok 0x40#8 0xFF#8]).treq = some 0x1FF#9 ∧
      Completing (configureRequest 0x1FF#9) .cfgRdWait (.ok 0x40#8 0xFF#8) [] (verifying [.ok 0x40#8 0xFF#8])) :=
  ⟨⟨rfl, rfl, rfl, rfl⟩, ⟨rfl, rfl, rfl, rfl⟩, ⟨rfl, rfl, rfl, rfl⟩, ⟨⟨rfl, rfl⟩, rfl, rfl, rfl, rfl⟩,
    ⟨rfl, rfl, rfl, rfl, rfl⟩⟩

/-- ConfigureVerifiesWhatItWrote: the request of T-CFG-2, with another request presented behind it and words at the ports
of ENC and TCU; both transactions answered, the read-back equal in its nine bits to the request, or different. -/
theorem witness_configure_run (r0 : Byte) :
    let s := { bound 0x600001FF#32 [.ok 0#8 0#8, .ok r0 0xFF#8] with
      presented := [0x600001FF#32, 0x42000000#32], encIn := [0x41#8], tcuIn := [⟨0x9#4, 0x01FF#16, 0#9⟩] }
    Invariant s ∧ s.phase = .idle ∧ BoundTo 0x2C#7 s ∧ encode (.configure 0x1FF#9) = .req 0x600001FF#32 ∧
    Presents 0x600001FF#32 [0x42000000#32] s ∧ (∀ c ∈ s.tcuIn, ¬TcuReserved c) ∧
    (0x41#8 ++ 0xFF#8).extractLsb' 0 9 = 0x1FF#9 ∧ (0x40#8 ++ 0xFF#8).extractLsb' 0 9 ≠ 0x1FF#9 := by
  have free : ¬TcuReserved ⟨0x9#4, 0x01FF#16, 0#9⟩ := by unfold TcuReserved; decide
  refine ⟨⟨rfl, rfl, ⟨rfl, rfl, rfl, rfl⟩, rfl, rfl⟩, rfl, ⟨rfl, rfl⟩, rfl, ⟨⟨rfl, ?_⟩, rfl⟩, ?_, by decide, by decide⟩
  · intro c later h; cases h; exact free
  · intro c h; rw [List.mem_singleton] at h; subst h; exact free

/-- UnitsAnswerInTheSameStep and CombinationalUnitsLeaveTheBlockAlone: words at both units while a READ completes. -/
theorem test_units_answer_in_the_same_step :
    (let t := after { reading [.ok 0x40#8 0x0F#8] with encIn := [0x4C#8], tcuIn := [⟨0x5#4, 0x000F#16, 0x00F#9⟩] }
     t.encOut = some 0x4C#8 ∧ t.tcuOut = some (.f true) ∧ response t = some (.ok, 0x400F#16) ∧
      (after t).encOut = none) := by decide

/-- BusyBlockHoldsRequests: a request presented while a READ waits, and another instruction in the busy block. -/
theorem witness_busy :
    (Presents 0x42000000#32 [] { reading [.ok 1#8 2#8] with presented := [0x42000000#32] } ∧
      ∃ t, step { reading [.ok 1#8 2#8] with presented := [0x42000000#32] } = .next t) ∧
    (encode (.read 0x1#4) = .req 0x42000000#32 ∧ (reading []).phase ≠ .idle ∧
      (reading []).req ≠ some (unpackRequest 0x42000000#32)) ∧
    (responding 0).phase = .resp :=
  ⟨⟨⟨⟨rfl, quiet rfl⟩, rfl⟩, _, rfl⟩, ⟨rfl, by decide, by decide⟩, rfl⟩

/-- TakingTheResponseReturnsToIdle, both clauses. -/
theorem witness_take :
    SeqTurn (responding 0) ∧ (responding 0).phase = .resp ∧ (responding 0).takes = 0 ∧ (responding 1).takes = 0 + 1 :=
  ⟨⟨rfl, quiet rfl⟩, rfl, rfl, rfl⟩

/-- BlockWaitsForEver. -/
theorem witness_wait :
    Invariant (verifying []) ∧ (verifying []).resetLine = false ∧ (∀ c ∈ (verifying []).tcuIn, ¬TcuReserved c) ∧
    (verifying []).phase.isWait = true ∧ (verifying []).answers = [] :=
  ⟨verifying_invariant [], rfl, fun _ h => (by cases h), rfl, rfl⟩

/-- PhaseMovesOnlyAsListed, OneTransactionAtATime, TransactionsGoToBusaddr (bound), InvariantKeptByEveryStep: the
read-back is issued. -/
theorem witness_second_transaction :
    Invariant (configuring [.ok 0#8 0#8]) ∧ (configuring [.ok 0#8 0#8]).resetLine = false ∧
    ∃ t, step (configuring [.ok 0#8 0#8]) = .next t ∧
      t.issued = (configuring [.ok 0#8 0#8]).issued ++ [.busWriteRead 0x7F#7 [0x4C#8] 2] :=
  ⟨configuring_invariant _, rfl, _, rfl, rfl⟩

/-- TransactionsGoToBusaddr (unbound) and OnlyLegalTransactionsAreIssued: the probe read is issued. -/
theorem witness_probe_transaction :
    Invariant (unbound 0x007F0000#32) ∧ IssuedLegal (unbound 0x007F0000#32) ∧
    ∃ t, step (unbound 0x007F0000#32) = .next t ∧ t.issued = (unbound 0x007F0000#32).issued ++ [.busRead 0x7F#7 1] :=
  ⟨⟨rfl, rfl, ⟨rfl, rfl, rfl, rfl⟩, rfl, rfl⟩, fun _ h => (by cases h), _, rfl, rfl⟩

/-- OnlyProbeAndResetWriteTheHandle and EventPortIsWriteOnly: the binding completion. -/
theorem witness_binding :
    Invariant (probing [.ok 0#8 0#8]) ∧ ∃ t, step (probing [.ok 0#8 0#8]) = .next t ∧ t.bound = true :=
  ⟨probing_invariant _, _, rfl, rfl⟩

/-- NoFaultUnderTheInvariant has states to speak of in every wait value, and in `IDLE` and `RESP`. -/
theorem witness_invariant_phases :
    Invariant idleBound ∧ Invariant (writing []) ∧ Invariant (reading []) ∧ Invariant (configuring []) ∧
      Invariant (verifying []) ∧ Invariant (probing []) ∧ Invariant (responding 0) :=
  ⟨idleBound_invariant, writing_invariant [], reading_invariant [], configuring_invariant [], verifying_invariant [],
    probing_invariant [], responding_invariant 0⟩

/-- ReadingNoValueFaults, clause by clause. -/
theorem witness_no_value :
    (let s := { State.reset with bound := true }
     s.phase = .idle ∧ s.bound = true ∧ s.busaddr = none ∧ Mapped 0x1#4) ∧
    (let s := { configuring [.ok 0#8 0#8] with busaddr := none }
     s.busaddr = none ∧ Completing (configureRequest 0x1FF#9) .cfgWrWait (.ok 0#8 0#8) [] s) ∧
    (let s := { verifying [.ok 0#8 0#8] with treq := none }
     s.treq = none ∧ Completing (configureRequest 0x1FF#9) .cfgRdWait (.ok 0#8 0#8) [] s) ∧
    (let s := { writing [] with req := none }
     SeqTurn s ∧ s.phase.isWait = true ∧ s.req = none) :=
  ⟨⟨rfl, rfl, rfl, .inr (.inl rfl)⟩, ⟨rfl, rfl, rfl, rfl, rfl⟩, ⟨rfl, rfl, rfl, rfl, rfl⟩, ⟨rfl, quiet rfl⟩, rfl, rfl⟩

/-- FailureReportsNothingElse and TransportErrorIsVerbatim: a failed write. -/
theorem witness_failure :
    Invariant (writing [.err (.ofNumber 9)]) ∧ SeqTurn (writing [.err (.ofNumber 9)]) ∧ (writing [.err (.ofNumber 9)]).phase.isWait = true ∧
    ∃ t, step (writing [.err (.ofNumber 9)]) = .next t ∧
      t.rsp = some { status := .transportError, data := 0#16, err := some (.ofNumber 9) } :=
  ⟨writing_invariant _, ⟨rfl, quiet rfl⟩, rfl, _, rfl, rfl⟩

/-- DiagnosticsDoNotInterfere: two different states that agree but for diagnostics. -/
theorem witness_diagnostics :
    { verifying [] with diagPresent := false }.withoutDiagnostics = (verifying []).withoutDiagnostics ∧
      { verifying [] with diagPresent := false } ≠ verifying [] := ⟨rfl, by decide⟩

/-- EventPortIsWriteOnly's last clause: no sink, no event. -/
theorem witness_no_sink :
    (after { writing [.ok 0#8 0#8] with diagPresent := false }).events = [] ∧
      (after (writing [.ok 0#8 0#8])).events = [.writeResult 0x4#4 0xFFFF#16 none] := by decide

/-- ResetAbandonsTheOperation: a reset while the read-back is outstanding. -/
theorem witness_reset :
    { verifying [] with resetLine := true }.resetLine = true ∧ TcuPortOk { verifying [] with resetLine := true } :=
  ⟨rfl, quiet rfl⟩

end Sys2Proof.Tests
end

section
/-! Proofs, family 00_scope: what a step leaves of the combinational units' ports (O19) and of the event port (O48),
and the maps of states that SEQ's part of a step commutes with, of which two settle O18 and O42. -/

namespace Sys2Proof.Machine

/-! ### SEQ leaves the units' ports alone -/

/-- The ports of ENC and TCU, inputs and outputs, hold the same in both states. -/
def SameUnitPorts (s t : State) : Prop :=
  t.encOut = s.encOut ∧ t.encIn = s.encIn ∧ t.tcuOut = s.tcuOut ∧ t.tcuIn = s.tcuIn

theorem compareReadBack_sameUnitPorts (got want : Tcon) (s : State) :
    SameUnitPorts s (compareReadBack got want s) := by
  unfold compareReadBack
  split <;> exact ⟨rfl, rfl, rfl, rfl⟩

theorem SeqCase.sameUnitPorts {s t : State} (h : SeqCase s t) : SameUnitPorts s t := by
  cases h
  case configureRead result => subst result; exact compareReadBack_sameUnitPorts ..
  all_goals subst t; exact ⟨rfl, rfl, rfl, rfl⟩

theorem StepCase.sameUnitPorts {s t : State} (h : StepCase s t) : SameUnitPorts s t := by
  cases h
  case accepted course => exact course.sameUnitPorts
  case continued course => exact course.sameUnitPorts
  all_goals subst t; exact ⟨rfl, rfl, rfl, rfl⟩

/-- Settles O19: the units answer before SEQ's part of the step (`afterUnits`), which leaves their ports alone. -/
theorem unitsAnswerInTheSameStep : Obligations.UnitsAnswerInTheSameStep := by
  intro s t h
  exact (step_cases h).sameUnitPorts

/-! ### A step only adds events -/

/-- From `s` to `t` nothing happens at the event port but that events are emitted, if a sink is attached. -/
def EmitsOnly (s t : State) : Prop := t.diagPresent = s.diagPresent ∧ ∃ es, t.events = eventsWith es s

theorem eventsWith_nil (s : State) : eventsWith [] s = s.events := by simp [eventsWith]

theorem emitsOnly_of_same {s t : State} (hd : t.diagPresent = s.diagPresent) (he : t.events = s.events) :
    EmitsOnly s t := ⟨hd, [], he.trans (eventsWith_nil s).symm⟩

theorem EmitsOnly.emit_right {s t : State} (h : EmitsOnly s t) (e : DiagEvent) : EmitsOnly s (emit e t) := by
  obtain ⟨hd, es, he⟩ := h
  refine ⟨hd, es ++ [e], ?_⟩
  simp only [emit_events, he, hd, eventsWith]
  split <;> simp

theorem EmitsOnly.compareReadBack_right {s t : State} (h : EmitsOnly s t) (got want : Tcon) :
    EmitsOnly s (compareReadBack got want t) := by
  unfold compareReadBack
  split
  · exact h
  · exact h.emit_right (.mismatch want got)

/-- A completion emits the one event of its transaction, CONFIGURE's comparison one more where it fails (R215). -/
theorem SeqCase.emitsOnly {s t : State} (h : SeqCase s t) : EmitsOnly s t := by
  cases h
  case failed | probeDone | writeDone | readDone | configureWritten => subst t; exact ⟨rfl, [_], rfl⟩
  case configureRead result =>
    subst result
    refine EmitsOnly.compareReadBack_right ?_ ..
    exact ⟨rfl, [_], rfl⟩
  all_goals subst t; exact emitsOnly_of_same rfl rfl

theorem StepCase.emitsOnly {s t : State} (h : StepCase s t) : EmitsOnly s t := by
  cases h
  case accepted course => exact course.emitsOnly
  case continued course => exact course.emitsOnly
  all_goals subst t; exact emitsOnly_of_same rfl rfl

/-- Settles O48: whatever a step is, it only emits (`StepCase.emitsOnly`). -/
theorem eventPortIsWriteOnly : Obligations.EventPortIsWriteOnly := by
  intro s t h
  obtain ⟨hd, es, he⟩ : EmitsOnly s t := (step_cases h).emitsOnly
  cases hs : s.diagPresent with
  | false =>
    have kept : t.events = s.events := by simpa [eventsWith, hs] using he
    exact ⟨hd.trans hs, ⟨[], by simp [kept]⟩, fun _ => kept⟩
  | true => exact ⟨hd.trans hs, ⟨es, by simpa [eventsWith, hs] using he⟩, nofun⟩

/-! ### Maps of states that SEQ commutes with -/

/-- The outcome with its next state, if it is one, mapped. -/
def mapNext (φ : State → State) : Result → Result
  | .next s => .next (φ s)
  | .fault g => .fault g
  | .refused q => .refused q

@[simp] theorem mapNext_next (φ : State → State) (s : State) : mapNext φ (.next s) = .next (φ s) := rfl
@[simp] theorem mapNext_fault (φ : State → State) (g : Fault) : mapNext φ (.fault g) = .fault g := rfl

/-- `φ` changes nothing SEQ reads but the error payloads of outcomes, which it renames by `f`, and it commutes with
every update SEQ makes, the payloads in responses and events renamed likewise. -/
structure SeqSymmetry (f : TErr → TErr) (φ : State → State) : Prop where
  bound_eq (s : State) : (φ s).bound = s.bound
  busaddr_eq (s : State) : (φ s).busaddr = s.busaddr
  phase_eq (s : State) : (φ s).phase = s.phase
  req_eq (s : State) : (φ s).req = s.req
  cmd_eq (s : State) : (φ s).cmd = s.cmd
  dlo_eq (s : State) : (φ s).dlo = s.dlo
  treq_eq (s : State) : (φ s).treq = s.treq
  bus_eq (s : State) : (φ s).bus = s.bus
  presented_eq (s : State) : (φ s).presented = s.presented
  takes_eq (s : State) : (φ s).takes = s.takes
  resetLine_eq (s : State) : (φ s).resetLine = s.resetLine
  answers_eq (s : State) : (φ s).answers = s.answers.map (Draw.mapErr f)
  map_setReq (r : Request) (s : State) : φ (setReq r s) = setReq r (φ s)
  map_setCmd (c : Byte) (s : State) : φ (setCmd c s) = setCmd c (φ s)
  map_setDlo (d : Byte) (s : State) : φ (setDlo d s) = setDlo d (φ s)
  map_setTreq (t : Tcon) (s : State) : φ (setTreq t s) = setTreq t (φ s)
  map_setReply (v : Value) (s : State) : φ (setReply v s) = setReply v (φ s)
  map_bindTo (a : BusAddr) (s : State) : φ (bindTo a s) = bindTo a (φ s)
  map_setPresented (later : List (BitVec 32)) (s : State) : φ (setPresented later s) = setPresented later (φ s)
  map_setTakes (n : Nat) (s : State) : φ (setTakes n s) = setTakes n (φ s)
  map_takeResponse (s : State) : φ (takeResponse s) = takeResponse (φ s)
  map_issue (wait : Phase) (x : Txn) (s : State) : φ (issue wait x s) = issue wait x (φ s)
  map_resetBlock (s : State) : φ (resetBlock s) = resetBlock (φ s)
  map_completed (later : List Draw) (s : State) :
    φ (completed later s) = completed (later.map (Draw.mapErr f)) (φ s)
  map_respond (status : Status) (data : Value) (err : Option TErr) (s : State) :
    φ (respond status data err s) = respond status data (err.map f) (φ s)
  map_emit (e : DiagEvent) (s : State) : φ (emit e s) = emit (e.mapErr f) (φ s)

/-- A part of a step does the same to the mapped state. -/
def Equivariant (φ : State → State) (k : State → Result) : Prop := ∀ s, mapNext φ (k s) = k (φ s)

/-- A continuation does the same to the mapped state with the renamed outcome. -/
def DrawEquivariant (f : TErr → TErr) (φ : State → State) (k : Draw → State → Result) : Prop :=
  ∀ d s, mapNext φ (k d s) = k (d.mapErr f) (φ s)

theorem mapNext_withValue {α : Type} {φ : State → State} {r : RegName} {v : Option α} {k k' : α → Result}
    (h : ∀ x, mapNext φ (k x) = k' x) : mapNext φ (withValue r v k) = withValue r v k' := by
  cases v with
  | none => rfl
  | some x => exact h x

namespace SeqSymmetry

section
variable {f : TErr → TErr} {φ : State → State} (hφ : SeqSymmetry f φ)
include hφ

/-! #### The shared operations -/

theorem map_raiseError (status : Status) (err : Option TErr) (s : State) :
    φ (raiseError status err s) = raiseError status (err.map f) (φ s) := hφ.map_respond ..

theorem equivariant_issueWrite (wait : Phase) : Equivariant φ (issueWrite wait) := by
  intro s
  unfold issueWrite
  rw [hφ.busaddr_eq, hφ.cmd_eq, hφ.dlo_eq]
  exact mapNext_withValue fun a => mapNext_withValue fun c => mapNext_withValue fun d => by
    rw [mapNext_next, hφ.map_issue]

theorem equivariant_issueRead (wait : Phase) : Equivariant φ (issueRead wait) := by
  intro s
  unfold issueRead
  rw [hφ.busaddr_eq, hφ.cmd_eq]
  exact mapNext_withValue fun a => mapNext_withValue fun c => by rw [mapNext_next, hφ.map_issue]

theorem equivariant_respStep : Equivariant φ respStep := by
  intro s
  unfold respStep
  rw [hφ.takes_eq]
  cases s.takes with
  | zero => rfl
  | succ n => simp only [mapNext_next, hφ.map_takeResponse, hφ.map_setTakes]

theorem equivariant_awaitDraw {k : Draw → State → Result} (hk : DrawEquivariant f φ k) :
    Equivariant φ (awaitDraw k) := by
  intro s
  unfold awaitDraw
  rw [hφ.bus_eq, hφ.answers_eq]
  cases s.bus with
  | none => rfl
  | some x =>
    cases s.answers with
    | nil => rfl
    | cons d later => exact (hk d _).trans (congrArg (k _) (hφ.map_completed ..))

theorem equivariant_accept {r : Request} {begin : State → Result} (hb : Equivariant φ begin) :
    Equivariant φ (accept r begin) := by
  intro s
  unfold accept
  rw [hφ.bound_eq, ← hφ.map_setReq]
  cases admission r s.bound with
  | none => exact hb _
  | some status => simp only [mapNext_next, hφ.map_raiseError, Option.map_none]

theorem equivariant_operate {r : Request} {begin : State → Result}
    {continued : Phase → Option (Draw → State → Result)} (hb : Equivariant φ begin)
    (hc : ∀ ph k, continued ph = some k → DrawEquivariant f φ k) : Equivariant φ (operate r begin continued) := by
  intro s
  unfold operate
  rw [hφ.phase_eq, hφ.req_eq]
  by_cases hp : s.phase = .idle
  · simpa only [hp, if_true] using hφ.equivariant_accept hb s
  · simp only [hp, if_false]
    cases hk : continued s.phase with
    | none => rfl
    | some k =>
      by_cases hr : s.req = some r
      · simpa only [hr, if_true] using hφ.equivariant_awaitDraw (hc _ k hk) s
      · simp only [hr, if_false, mapNext_next]

theorem mapNext_failTransport (event : DiagEvent) (e : TErr) (s : State) :
    mapNext φ (failTransport event e s) = failTransport (event.mapErr f) (f e) (φ s) := by
  simp only [failTransport, mapNext_next, hφ.map_raiseError, hφ.map_emit, Option.map_some]

/-! #### The six operations -/

theorem equivariant_execProbe (a : BusAddr) : Equivariant φ (execProbe a) := by
  refine hφ.equivariant_operate (fun s => ?_) fun ph k hk d s => ?_
  · simp only [beginProbe, mapNext_next, hφ.map_issue]
  · cases ph <;> cases hk
    cases d with
    | ok b0 b1 =>
      simp only [finishProbe, mapNext_next, hφ.map_respond, hφ.map_emit, hφ.map_bindTo]
      rfl
    | err e => exact hφ.mapNext_failTransport ..

/-- The shared course of WRITE and the two wiper operations. -/
theorem equivariant_writeCourse (r : Request) (reg : RegAddr) (v : Value) :
    Equivariant φ (operate r (beginWrite reg v) (writeContinued reg v)) := by
  refine hφ.equivariant_operate (fun s => ?_) fun ph k hk d s => ?_
  · rw [beginWrite, hφ.equivariant_issueWrite, hφ.map_setDlo, hφ.map_setCmd]
    rfl
  · cases ph <;> cases hk
    cases d with
    | ok b0 b1 =>
      simp only [finishWrite, mapNext_next, hφ.map_respond, hφ.map_emit]
      rfl
    | err e => exact hφ.mapNext_failTransport ..

theorem equivariant_execRead (reg : RegAddr) : Equivariant φ (execRead reg) := by
  refine hφ.equivariant_operate (fun s => ?_) fun ph k hk d s => ?_
  · rw [beginRead, hφ.equivariant_issueRead, hφ.map_setCmd]
    rfl
  · cases ph <;> cases hk
    cases d with
    | ok r0 r1 =>
      simp only [finishRead, mapNext_next, hφ.map_respond, hφ.map_emit, hφ.map_setReply]
      rfl
    | err e => exact hφ.mapNext_failTransport ..

theorem map_compareReadBack (got want : Tcon) (s : State) :
    φ (compareReadBack got want s) = compareReadBack got want (φ s) := by
  unfold compareReadBack
  split
  · exact hφ.map_respond .ok 0 none s
  · rw [hφ.map_raiseError, hφ.map_emit]
    rfl

theorem drawEquivariant_finishConfigureWrite (t : Tcon) : DrawEquivariant f φ (finishConfigureWrite t) := by
  intro d s
  cases d with
  | ok b0 b1 =>
    rw [finishConfigureWrite, hφ.equivariant_issueRead, hφ.map_setCmd, hφ.map_emit]
    rfl
  | err e => exact hφ.mapNext_failTransport ..

theorem drawEquivariant_finishConfigureRead : DrawEquivariant f φ finishConfigureRead := by
  intro d s
  cases d with
  | ok r0 r1 =>
    rw [Draw.mapErr, finishConfigureRead, finishConfigureRead, hφ.treq_eq]
    refine mapNext_withValue fun want => ?_
    rw [mapNext_next, hφ.map_compareReadBack, hφ.map_emit, hφ.map_setReply]
    rfl
  | err e => exact hφ.mapNext_failTransport ..

theorem equivariant_execConfigure (t : Tcon) : Equivariant φ (execConfigure t) := by
  refine hφ.equivariant_operate (fun s => ?_) fun ph k hk => ?_
  · rw [beginConfigure, hφ.equivariant_issueWrite, hφ.map_setDlo, hφ.map_setCmd, hφ.map_setTreq]
    rfl
  · cases ph <;> cases hk
    · exact hφ.drawEquivariant_finishConfigureWrite t
    · exact hφ.drawEquivariant_finishConfigureRead

theorem equivariant_exec_request {r : Request} {i : Instr} (hd : decodeRequest r = .ok i) :
    Equivariant φ (exec i) := by
  rcases decodeRequest_ok hd with ⟨a, rfl, -⟩ | ⟨reg, v, rfl, -⟩ | ⟨reg, rfl, -⟩ | ⟨c, rfl, -⟩ | ⟨v, rfl, -⟩ | ⟨v, rfl, -⟩
  · exact hφ.equivariant_execProbe a
  · exact hφ.equivariant_writeCourse _ reg v
  · exact hφ.equivariant_execRead reg
  · exact hφ.equivariant_execConfigure c
  · exact hφ.equivariant_writeCourse _ wiper0 v
  · exact hφ.equivariant_writeCourse _ wiper1 v

/-! #### SEQ's part of a step -/

theorem equivariant_acceptWord (w : BitVec 32) : Equivariant φ (acceptWord exec w) := by
  intro s
  unfold acceptWord
  cases hd : decodeRequest (unpackRequest w) with
  | ok i => exact hφ.equivariant_exec_request hd s
  | error e => simp only [mapNext_next, hφ.map_raiseError, hφ.map_setReq, Option.map_none]

theorem equivariant_resume : Equivariant φ (resume exec) := by
  intro s
  unfold resume
  rw [hφ.req_eq]
  refine mapNext_withValue fun r => ?_
  cases hd : decodeRequest r with
  | ok i => exact hφ.equivariant_exec_request hd s
  | error e => rfl

theorem equivariant_seqStep : Equivariant φ seqStep := by
  intro s
  unfold seqStep
  rw [hφ.phase_eq, hφ.presented_eq]
  cases s.phase
  case idle =>
    cases s.presented with
    | nil => rfl
    | cons w later => exact (hφ.equivariant_acceptWord w _).trans (by rw [hφ.map_setPresented])
  case resp => exact hφ.equivariant_respStep s
  all_goals exact hφ.equivariant_resume s

theorem equivariant_seqOrReset : Equivariant φ seqOrReset := by
  intro s
  unfold seqOrReset
  rw [hφ.resetLine_eq]
  split
  · rw [mapNext_next, hφ.map_resetBlock]
  · exact hφ.equivariant_seqStep s

end

end SeqSymmetry

/-! ### Forgetting the units' ports -/

@[simp] theorem drawMapErr_id : Draw.mapErr id = id := by
  funext d; cases d <;> rfl

@[simp] theorem diagEventMapErr_id (e : DiagEvent) : e.mapErr id = e := by
  cases e with
  | readResult reg p => cases p <;> rfl
  | _ => simp [DiagEvent.mapErr]

theorem withoutUnits_seqSymmetry : SeqSymmetry id State.withoutUnits := by
  constructor
  case answers_eq => intro s; simp [State.withoutUnits]
  case map_completed => intro later s; simp [State.withoutUnits, completed]
  case map_respond => intro status data err s; simp [State.withoutUnits, respond]
  case map_emit => intro e s; simp [State.withoutUnits, emit]
  all_goals intros; rfl

/-- Where TCU refuses nothing, a step with nothing at the units' ports is the step, the units' ports forgotten. -/
theorem step_withoutUnits {s : State} (h : TcuPortOk s) :
    step s.withoutUnits = mapNext State.withoutUnits (step s) := by
  rw [step_eq h, withoutUnits_seqSymmetry.equivariant_seqOrReset]
  exact step_eq nofun

/-- Settles O18: SEQ's part of a step commutes with forgetting the units' ports. -/
theorem combinationalUnitsLeaveTheBlockAlone : Obligations.CombinationalUnitsLeaveTheBlockAlone := by
  intro s h
  rw [step_withoutUnits h]
  cases step s <;> rfl

/-! ### Renaming the error payloads -/

theorem mapErr_seqSymmetry (f : TErr → TErr) : SeqSymmetry f (State.mapErr f) := by
  constructor
  case map_emit =>
    intro e s
    cases h : s.diagPresent <;> simp [State.mapErr, emit, h]
  all_goals intros; rfl

theorem step_mapErr (f : TErr → TErr) (s : State) : step (s.mapErr f) = mapNext (State.mapErr f) (step s) := by
  rcases tcuPortOk_or s with h | ⟨c, later, hc, hr⟩
  · rw [step_eq h, (mapErr_seqSymmetry f).equivariant_seqOrReset]
    exact step_eq h
  · rw [step_refused hc hr]
    exact step_refused hc hr

/-- Settles O42: SEQ's part of a step commutes with renaming the payloads, and what ENC and TCU do holds none. -/
theorem errorPayloadIsNotInspected : Obligations.ErrorPayloadIsNotInspected := by
  intro f s
  rw [step_mapErr]
  cases step s <;> rfl

end Sys2Proof.Machine
end

section
/-! Proofs, family 10_state: the invariant, which a step keeps (O35, O36) and under which none faults (O37); the ways of
`PHASE` (O32), where transactions go (O34), what writes the handle (O39), and reading a register without a value (O38). -/

namespace Sys2Proof.Machine

/-! ### CONFIGURE's comparison only responds -/

@[simp] theorem compareReadBack_bound (got want : Tcon) (s : State) :
    (compareReadBack got want s).bound = s.bound := by unfold compareReadBack; split <;> rfl

@[simp] theorem compareReadBack_busaddr (got want : Tcon) (s : State) :
    (compareReadBack got want s).busaddr = s.busaddr := by unfold compareReadBack; split <;> rfl

@[simp] theorem compareReadBack_phase (got want : Tcon) (s : State) :
    (compareReadBack got want s).phase = .resp := by unfold compareReadBack; split <;> rfl

@[simp] theorem compareReadBack_issued (got want : Tcon) (s : State) :
    (compareReadBack got want s).issued = s.issued := by unfold compareReadBack; split <;> rfl

/-! ### Coherent responses -/

/-- A response without data and without a payload is coherent, if its status needs neither a payload nor CONFIGURE. -/
theorem responseCoherent_status {r : Request} {status : Status} (ht : status ≠ .transportError)
    (hc : status ≠ .configMismatch) : ResponseCoherent r ⟨status, 0#16, none⟩ :=
  ⟨⟨nofun, fun h => absurd h ht⟩, fun h => absurd rfl h, fun h => absurd h hc⟩

theorem responseCoherent_refusal {r : Request} {status : Status} (h : status.isRefusal = true) :
    ResponseCoherent r ⟨status, 0#16, none⟩ :=
  responseCoherent_status (by rintro rfl; cases h) (by rintro rfl; cases h)

theorem responseCoherent_transportError (r : Request) (e : TErr) :
    ResponseCoherent r ⟨.transportError, 0#16, some e⟩ :=
  ⟨⟨fun _ => rfl, fun _ => rfl⟩, fun h => absurd rfl h, nofun⟩

theorem responseCoherent_read (reg : RegAddr) (v : Value) : ResponseCoherent (readRequest reg) ⟨.ok, v, none⟩ :=
  ⟨⟨nofun, nofun⟩, fun _ => ⟨rfl, reg, rfl⟩, nofun⟩

theorem responseCoherent_configMismatch (c : Tcon) :
    ResponseCoherent (configureRequest c) ⟨.configMismatch, 0#16, none⟩ :=
  ⟨⟨nofun, nofun⟩, fun h => absurd rfl h, fun _ => ⟨c, rfl⟩⟩

/-! ### The invariant -/

/-- The clause of the invariant for the value that `PHASE` has. -/
theorem PhaseInv.clause {s : State} {p : Phase} (h : PhaseInv s) (hp : s.phase = p) :
    PhaseInv { s with phase := p } := by subst hp; exact h

theorem decodeRequest_of_writeRequested {reg : RegAddr} {v : Value} {r : Request} (h : WriteRequested reg v r) :
    ∃ i, decodeRequest r = .ok i := by
  rcases h with ⟨rfl, -⟩ | ⟨rfl, -⟩ | ⟨rfl, -⟩
  · exact ⟨_, decodeRequest_write reg v⟩
  · exact ⟨_, decodeRequest_setWiper0 v⟩
  · exact ⟨_, decodeRequest_setWiper1 v⟩

/-- While a transaction is outstanding, `REQ` spells an operation. -/
theorem PhaseInv.request {s : State} (h : PhaseInv s) (hw : s.phase.isWait = true) :
    ∃ r i, s.req = some r ∧ decodeRequest r = .ok i := by
  cases hp : s.phase
  case probeWait =>
    obtain ⟨-, -, -, a, hr, -⟩ := h.clause hp
    exact ⟨_, _, hr, decodeRequest_probe a⟩
  case wrWait =>
    obtain ⟨-, -, -, a, reg, v, r, -, hr, hq, -⟩ := h.clause hp
    obtain ⟨i, hi⟩ := decodeRequest_of_writeRequested hq
    exact ⟨r, i, hr, hi⟩
  case rdWait =>
    obtain ⟨-, -, -, -, a, reg, -, hr, -⟩ := h.clause hp
    exact ⟨_, _, hr, decodeRequest_read reg⟩
  case cfgWrWait =>
    obtain ⟨-, -, a, c, -, hr, -⟩ := h.clause hp
    exact ⟨_, _, hr, decodeRequest_configure c⟩
  case cfgRdWait =>
    obtain ⟨-, -, a, c, -, hr, -⟩ := h.clause hp
    exact ⟨_, _, hr, decodeRequest_configure c⟩
  all_goals rw [hp] at hw; cases hw

theorem configureRequest_injective {c c' : Tcon} (h : configureRequest c = configureRequest c') : c = c' := by
  have := congrArg decodeRequest h
  simpa using this

theorem Invariant.address {s : State} (h : Invariant s) (hb : s.bound = true) : ∃ a, s.busaddr = some a :=
  Option.isSome_iff_exists.mp (h.1 ▸ hb)

theorem invariant_afterUnits (s : State) : Invariant (afterUnits s) ↔ Invariant s := Iff.rfl

theorem invariant_setPresented (later : List (BitVec 32)) (s : State) :
    Invariant (setPresented later s) ↔ Invariant s := Iff.rfl

/-- A coherent response with no transaction outstanding meets the invariant. -/
theorem invariant_respond {r : Request} {status : Status} {data : Value} {err : Option TErr} {s : State}
    (hh : s.bound = s.busaddr.isSome) (hr : s.req = some r) (hb : s.bus = none)
    (hc : ResponseCoherent r ⟨status, data, err⟩) : Invariant (respond status data err s) :=
  ⟨hh, hb, r, _, hr, rfl, hc⟩

theorem invariant_compareReadBack {c got want : Tcon} {s : State} (hh : s.bound = s.busaddr.isSome)
    (hr : s.req = some (configureRequest c)) (hb : s.bus = none) : Invariant (compareReadBack got want s) := by
  unfold compareReadBack
  split
  · exact invariant_respond hh hr hb (responseCoherent_status nofun nofun)
  · exact invariant_respond hh hr hb (responseCoherent_configMismatch c)

/-- What SEQ does to a state that meets the invariant meets it again. -/
theorem SeqCase.keepsInvariant {s t : State} (h : SeqCase s t) (inv : Invariant s) : Invariant t := by
  obtain ⟨hh, hp⟩ := inv
  cases h
  case held result => subst result; exact ⟨hh, hp⟩
  case refused r status idle refusal result =>
    obtain ⟨-, -, -, hbus⟩ := hp.clause idle
    subst result
    exact invariant_respond (s := setReq r s) hh rfl hbus (responseCoherent_refusal refusal)
  case probeIssue a idle unbound result =>
    obtain ⟨-, hdata, hrsp, -⟩ := hp.clause idle
    subst result
    exact ⟨hh, hdata, hrsp, unbound, a, rfl, rfl⟩
  case writeIssue a reg v r idle bound requested result =>
    obtain ⟨-, ⟨-, -, htreq, hreply⟩, hrsp, -⟩ := hp.clause idle
    subst result
    exact ⟨hh, htreq, hreply, hrsp, a, reg, v, r, bound, rfl, requested, rfl, rfl, rfl⟩
  case readIssue a reg idle bound mapped result =>
    obtain ⟨-, ⟨-, hdlo, htreq, hreply⟩, hrsp, -⟩ := hp.clause idle
    subst result
    exact ⟨hh, hdlo, htreq, hreply, hrsp, a, reg, bound, rfl, mapped, rfl, rfl⟩
  case configureIssue a c idle bound result =>
    obtain ⟨-, ⟨-, -, -, hreply⟩, hrsp, -⟩ := hp.clause idle
    subst result
    exact ⟨hh, hreply, hrsp, a, c, bound, rfl, rfl, rfl, rfl, rfl⟩
  case failed event e later waiting _ _ result =>
    obtain ⟨r, -, hr, -⟩ := hp.request waiting
    subst result
    exact invariant_respond (s := emit event (completed later s)) hh hr rfl (responseCoherent_transportError r e)
  case probeDone inProgress _ _ result =>
    subst result
    exact invariant_respond rfl inProgress rfl (responseCoherent_status nofun nofun)
  case writeDone inProgress _ _ result =>
    subst result
    exact invariant_respond hh inProgress rfl (responseCoherent_status nofun nofun)
  case readDone inProgress _ _ result =>
    subst result
    exact invariant_respond hh inProgress rfl (responseCoherent_read ..)
  case configureWritten a c _ _ _ waiting inProgress _ _ address result =>
    obtain ⟨hreply, hrsp, _, c', ⟨hbound, -⟩, hr, htreq, -, hdlo, -⟩ := hp.clause waiting
    obtain rfl : c' = c := configureRequest_injective (Option.some.inj (hr.symm.trans inProgress))
    subst result
    exact ⟨hh, hreply, hrsp, a, c', ⟨hbound, address⟩, inProgress, htreq, rfl, hdlo, rfl⟩
  case configureRead inProgress _ _ _ result =>
    subst result
    exact invariant_compareReadBack hh inProgress rfl

theorem StepCase.keepsInvariant {s t : State} (h : StepCase s t) (inv : Invariant s) : Invariant t := by
  cases h
  case reset result => subst result; exact ⟨rfl, rfl, ⟨rfl, rfl, rfl, rfl⟩, rfl, rfl⟩
  case waiting result => subst result; exact inv
  case taken presenting _ result =>
    obtain ⟨hh, hp⟩ := inv
    obtain ⟨hbus, -⟩ := hp.clause presenting
    subst result
    exact ⟨hh, rfl, ⟨rfl, rfl, rfl, rfl⟩, rfl, hbus⟩
  case accepted later _ _ course => exact course.keepsInvariant ((invariant_setPresented later s).mpr inv)
  case continued course => exact course.keepsInvariant inv

/-- Settles O36: the units write no register, and SEQ's part of the step keeps the invariant in every case. -/
theorem invariantKeptByEveryStep : Obligations.InvariantKeptByEveryStep := by
  intro s t inv h
  exact (step_cases h).keepsInvariant ((invariant_afterUnits s).mpr inv)

/-- Settles O35: after reset the clause of `IDLE` holds, of an unbound block. -/
theorem invariantAtReset : Obligations.InvariantAtReset := ⟨rfl, rfl, ⟨rfl, rfl, rfl, rfl⟩, rfl, rfl⟩

/-! ### The ways of PHASE -/

/-- `PHASE` stays, or moves along one of the ways listed, of which all but the last are an operation's. -/
def PhaseMoves (p q : Phase) : Prop :=
  q = p ∨ (p, q) ∈ [(Phase.idle, Phase.probeWait), (.idle, .wrWait), (.idle, .rdWait), (.idle, .cfgWrWait),
    (.idle, .resp), (.probeWait, .resp), (.wrWait, .resp), (.rdWait, .resp), (.cfgWrWait, .cfgRdWait),
    (.cfgWrWait, .resp), (.cfgRdWait, .resp), (.resp, .idle)]

theorem phaseMoves_of_wait {p : Phase} (h : p.isWait = true) : PhaseMoves p .resp := by
  revert h; cases p <;> simp [PhaseMoves, Phase.isWait]

theorem SeqCase.phaseMoves {s t : State} (h : SeqCase s t) : PhaseMoves s.phase t.phase := by
  cases h
  case held result => exact .inl (congrArg State.phase result)
  case refused idle _ result => subst result; simp [PhaseMoves, refusedWith, idle]
  case probeIssue idle _ result | configureIssue idle _ result => subst result; simp [PhaseMoves, idle]
  case writeIssue idle _ _ result | readIssue idle _ _ result => subst result; simp [PhaseMoves, idle]
  case configureWritten waiting _ _ _ _ result => subst result; simp [PhaseMoves, waiting]
  case failed waiting _ _ result => subst result; exact phaseMoves_of_wait waiting
  case probeDone waiting _ _ _ result | writeDone waiting _ _ _ result | readDone waiting _ _ _ result =>
    subst result; exact phaseMoves_of_wait (isWait_of waiting rfl)
  case configureRead waiting _ _ _ _ result =>
    subst result
    rw [compareReadBack_phase]
    exact phaseMoves_of_wait (isWait_of waiting rfl)

/-- Settles O32: the ways are those of SEQ's courses, and the taking of the response. -/
theorem phaseMovesOnlyAsListed : Obligations.PhaseMovesOnlyAsListed := by
  intro s t hl h
  change PhaseMoves (afterUnits s).phase t.phase
  cases step_cases h with
  | reset line => cases hl.symm.trans line
  | waiting _ result => exact .inl (congrArg State.phase result)
  | taken _ n presenting _ result => subst result; rw [presenting]; simp [PhaseMoves]
  | accepted _ w later _ _ course => exact course.phaseMoves
  | continued _ _ course => exact course.phaseMoves

/-! ### Where transactions go -/

/-- What SEQ issues: nothing, or one transaction, to `BUSADDR` or, for the probe of an unbound block, to the address
that the PROBE carries (R23, R50). -/
def IssuesAddressed (s t : State) : Prop :=
  t.issued = s.issued ∨ ∃ x : Txn, t.issued = s.issued ++ [x] ∧
    (s.busaddr = some x.address ∨ (s.bound = false ∧ ∃ a, x = .busRead a 1 ∧ t.req = some (probeRequest a)))

theorem SeqCase.issuesAddressed {s t : State} (h : SeqCase s t) : IssuesAddressed s t := by
  cases h
  case probeIssue a _ unbound result => subst result; exact .inr ⟨_, rfl, .inr ⟨unbound, a, rfl, rfl⟩⟩
  case writeIssue bound _ result => subst result; exact .inr ⟨_, rfl, .inl bound.2⟩
  case readIssue bound _ result => subst result; exact .inr ⟨_, rfl, .inl bound.2⟩
  case configureIssue bound result => subst result; exact .inr ⟨_, rfl, .inl bound.2⟩
  case configureWritten address result => subst result; exact .inr ⟨_, rfl, .inl address⟩
  case configureRead result => subst result; exact .inl (compareReadBack_issued ..)
  all_goals subst t; exact .inl rfl

theorem StepCase.issuesAddressed {s t : State} (h : StepCase s t) : IssuesAddressed s t := by
  cases h
  case accepted course => exact course.issuesAddressed
  case continued course => exact course.issuesAddressed
  all_goals subst t; exact .inl rfl

/-- Settles O34: a step issues addressed as `IssuesAddressed` says, and a block with an address is bound (R22, R23). -/
theorem transactionsGoToBusaddr : Obligations.TransactionsGoToBusaddr := by
  intro s t x inv h hx
  obtain hn | ⟨y, hy, haddr⟩ : IssuesAddressed s t := (step_cases h).issuesAddressed
  · rw [hn] at hx; simp at hx
  · obtain rfl : y = x := by rw [hy] at hx; simpa using hx
    rcases haddr with ha | hprobe
    · exact .inl ⟨by rw [inv.1, ha]; rfl, ha⟩
    · exact .inr hprobe

/-! ### What writes the handle -/

/-- A step's part leaves the handle, or it is the completion with `Ok` of the PROBE in the block (R22, R23). -/
def HandleKeptOrBound (s t : State) : Prop :=
  (t.bound = s.bound ∧ t.busaddr = s.busaddr) ∨
  (s.phase = .probeWait ∧ ∃ (a : BusAddr) (b0 b1 : Byte) (later : List Draw),
    s.req = some (probeRequest a) ∧ s.answers = .ok b0 b1 :: later ∧ t.bound = true ∧ t.busaddr = some a ∧
    t.rsp = some { status := .ok, data := 0#16, err := none })

theorem SeqCase.handle {s t : State} (h : SeqCase s t) : HandleKeptOrBound s t := by
  cases h
  case probeDone a b0 b1 later waiting inProgress _ drawn result =>
    subst result
    exact .inr ⟨waiting, a, b0, b1, later, inProgress, drawn, rfl, rfl, rfl⟩
  case configureRead result => subst result; exact .inl ⟨compareReadBack_bound .., compareReadBack_busaddr ..⟩
  all_goals subst t; exact .inl ⟨rfl, rfl⟩

theorem StepCase.handle {s t : State} (h : StepCase s t) :
    (s.resetLine = true ∧ t.bound = false ∧ t.busaddr = none) ∨ HandleKeptOrBound s t := by
  cases h
  case reset line result => subst result; exact .inl ⟨line, rfl, rfl⟩
  case accepted course => exact .inr course.handle
  case continued course => exact .inr course.handle
  all_goals subst t; exact .inr (.inl ⟨rfl, rfl⟩)

/-- Settles O39: besides reset, SEQ writes the handle only where PROBE binds, and in `PROBE_WAIT` the block is unbound. -/
theorem onlyProbeAndResetWriteTheHandle : Obligations.OnlyProbeAndResetWriteTheHandle := by
  refine ⟨rfl, rfl, fun s t inv h => ?_⟩
  rcases (step_cases h).handle with hreset | hkept | ⟨hp, hbinds⟩
  · exact .inl hreset
  · exact .inr (.inl hkept)
  · obtain ⟨-, -, unbound, -⟩ := inv.2.clause hp
    exact .inr (.inr ⟨unbound, hp, hbinds⟩)

/-! ### No fault under the invariant -/

/-- An operation faults only where its beginning, once admitted, or the continuation of its completion does. -/
theorem operate_no_fault {f : Fault} {r : Request} {begin : State → Result}
    {continued : Phase → Option (Draw → State → Result)} {s : State}
    (hb : admission r s.bound = none → begin (setReq r s) ≠ .fault f)
    (hc : ∀ k d later, continued s.phase = some k → k d (completed later s) ≠ .fault f) :
    operate r begin continued s ≠ .fault f := by
  by_cases hp : s.phase = .idle
  · rw [operate_idle hp]
    cases ha : admission r s.bound with
    | none => rw [accept_admitted ha]; exact hb ha
    | some status => rw [accept_refused ha]; nofun
  · rw [operate, if_neg hp]
    cases hk : continued s.phase with
    | none => nofun
    | some k =>
      dsimp only
      split
      · rcases awaitDraw_cases k s with ⟨hw, -⟩ | ⟨_, d, later, -, -, hw⟩ <;> rw [hw]
        · nofun
        · exact hc k d later hk
      · nofun

/-- The shared course of WRITE and the two wiper operations. -/
theorem writeCourse_no_fault {f : Fault} {reg : RegAddr} {v : Value} {r : Request} {s : State} (inv : Invariant s)
    (hadmit : admission r s.bound = none → s.bound = true) :
    operate r (beginWrite reg v) (writeContinued reg v) s ≠ .fault f := by
  refine operate_no_fault (fun ha => ?_) fun k d later hk => ?_
  · obtain ⟨a, haddr⟩ := inv.address (hadmit ha)
    rw [beginWrite, issueWrite_eq (by exact haddr) rfl rfl]
    nofun
  · cases hp : s.phase <;> rw [hp] at hk <;> cases hk
    cases d <;> nofun

theorem execConfigure_no_fault {f : Fault} {c : Tcon} {s : State} (inv : Invariant s) :
    execConfigure c s ≠ .fault f := by
  refine operate_no_fault (fun ha => ?_) fun k d later hk => ?_
  · obtain ⟨a, haddr⟩ := inv.address (by simpa using ha)
    rw [beginConfigure, issueWrite_eq (by exact haddr) rfl rfl]
    nofun
  · cases hp : s.phase <;> rw [hp] at hk <;> cases hk
    · obtain ⟨-, -, a, _, ⟨-, haddr⟩, -⟩ := inv.2.clause hp
      cases d with
      | ok b0 b1 =>
        rw [finishConfigureWrite, issueRead_eq (by exact haddr) rfl]
        nofun
      | err e => nofun
    · obtain ⟨-, -, _, want, -, -, htreq, -⟩ := inv.2.clause hp
      cases d with
      | ok r0 r1 =>
        rw [finishConfigureRead, show (completed later s).treq = some want from htreq]
        nofun
      | err e => nofun

theorem exec_request_no_fault {f : Fault} {r : Request} {i : Instr} {s : State} (hd : decodeRequest r = .ok i)
    (inv : Invariant s) : exec i s ≠ .fault f := by
  rcases decodeRequest_ok hd with ⟨a, rfl, -⟩ | ⟨reg, v, rfl, -⟩ | ⟨reg, rfl, -⟩ | ⟨c, rfl, -⟩ | ⟨v, rfl, -⟩ | ⟨v, rfl, -⟩
  · refine operate_no_fault (fun _ => nofun) fun k d later hk => ?_
    cases hp : s.phase <;> rw [hp] at hk <;> cases hk
    cases d <;> nofun
  · exact writeCourse_no_fault inv fun ha => by revert ha; cases s.bound <;> simp
  · refine operate_no_fault (fun ha => ?_) fun k d later hk => ?_
    · obtain ⟨a, haddr⟩ := inv.address (by revert ha; cases s.bound <;> simp)
      rw [beginRead, issueRead_eq (by exact haddr) rfl]
      nofun
    · cases hp : s.phase <;> rw [hp] at hk <;> cases hk
      cases d <;> nofun
  · exact execConfigure_no_fault inv
  · exact writeCourse_no_fault inv fun ha => by simpa using ha
  · exact writeCourse_no_fault inv fun ha => by simpa using ha

theorem acceptWord_no_fault {f : Fault} {w : BitVec 32} {s : State} (inv : Invariant s) :
    acceptWord exec w s ≠ .fault f := by
  unfold acceptWord
  cases hd : decodeRequest (unpackRequest w) with
  | ok i => exact exec_request_no_fault hd inv
  | error e => nofun

theorem resume_no_fault {f : Fault} {s : State} (inv : Invariant s) (hw : s.phase.isWait = true) :
    resume exec s ≠ .fault f := by
  obtain ⟨r, i, hr, hd⟩ := inv.2.request hw
  rw [resume_of_request hr hd]
  exact exec_request_no_fault hd inv

theorem seqOrReset_no_fault {f : Fault} {s : State} (inv : Invariant s) : seqOrReset s ≠ .fault f := by
  unfold seqOrReset
  split
  · nofun
  · cases hp : s.phase
    case idle =>
      rw [seqStep, hp]
      cases s.presented with
      | nil => nofun
      | cons w later => exact acceptWord_no_fault ((invariant_setPresented later s).mpr inv)
    case resp =>
      rw [seqStep_of_resp hp]
      rcases respStep_cases s with ⟨-, hr⟩ | ⟨n, -, hr⟩ <;> rw [hr] <;> nofun
    all_goals
      have hw : s.phase.isWait = true := isWait_of hp rfl
      rw [seqStep_of_wait hw]
      exact resume_no_fault inv hw

/-- Settles O37: a step is refused by TCU, or is SEQ's, which under the invariant finds every register it reads. -/
theorem noFaultUnderTheInvariant : Obligations.NoFaultUnderTheInvariant := by
  intro s f inv
  rcases tcuPortOk_or s with hok | ⟨c, later, hc, hr⟩
  · rw [step_eq hok]
    exact seqOrReset_no_fault ((invariant_afterUnits s).mpr inv)
  · rw [step_refused hc hr]
    nofun

/-! ### Reading a register without a value -/

theorem issueWrite_unaddressed {wait : Phase} {s : State} (h : s.busaddr = none) :
    issueWrite wait s = .fault (.noValue .busaddr) := by
  rw [issueWrite, h, withValue_none]

theorem issueRead_unaddressed {wait : Phase} {s : State} (h : s.busaddr = none) :
    issueRead wait s = .fault (.noValue .busaddr) := by
  rw [issueRead, h, withValue_none]

/-- An operation admitted in `IDLE` is its beginning. -/
theorem operate_admitted {r : Request} {begin : State → Result} {continued : Phase → Option (Draw → State → Result)}
    {s : State} (hp : s.phase = .idle) (ha : admission r s.bound = none) :
    operate r begin continued s = begin (setReq r s) :=
  (operate_idle hp).trans (accept_admitted ha)

theorem resume_without_request {s : State} (h : s.req = none) : resume exec s = .fault (.noValue .req) := by
  rw [resume, h, withValue_none]

/-- Settles O38: each operation comes to the read in question, and `withValue` faults there. -/
theorem readingNoValueFaults : Obligations.ReadingNoValueFaults := by
  refine ⟨fun reg v t s hp hb ha => ⟨fun hm => ?_, fun hm => ?_, ?_, ?_, ?_⟩, fun t b0 b1 later s ha hc => ?_,
    fun t r0 r1 later s ht hc => ?_, fun s hs hw hr => ?_⟩
  · exact (operate_admitted hp (by simp [hb, (mappedReg_iff reg).mpr hm])).trans (issueWrite_unaddressed ha)
  · exact (operate_admitted hp (by simp [hb, (mappedReg_iff reg).mpr hm])).trans (issueRead_unaddressed ha)
  · exact (operate_admitted hp (by simp [hb])).trans (issueWrite_unaddressed ha)
  · exact (operate_admitted hp (by simp [hb])).trans (issueWrite_unaddressed ha)
  · exact (operate_admitted hp (by simp [hb])).trans (issueWrite_unaddressed ha)
  · refine (operate_completing (ph := .cfgWrWait) (by rfl) nofun hc).trans ?_
    rw [finishConfigureWrite, issueRead_unaddressed (by exact ha)]
  · refine (operate_completing (ph := .cfgRdWait) (by rfl) nofun hc).trans ?_
    rw [finishConfigureRead, completed_treq, ht, withValue_none]
  · rw [step_of_seqTurn hs, seqStep_of_wait (by exact hw), resume_without_request (by exact hr)]

end Sys2Proof.Machine
end

section
/-! Proofs, family 20_memory: what a step issues, one transaction at a time (O33) and only legal ones (O40), and a whole
CONFIGURE with its two transactions (O28). -/

namespace Sys2Proof.Machine

/-! ### What a step issues -/

/-- Nothing is issued, and `PHASE` enters no wait value. -/
def IssuesNone (s t : State) : Prop := t.issued = s.issued ∧ (t.phase = s.phase ∨ t.phase = .resp ∨ t.phase = .idle)

/-- One legal transaction is issued, with the move into a wait value: from `IDLE`, or with the completion of the
transaction before it (R162). -/
def IssuesOne (s t : State) : Prop :=
  ∃ x : Txn, LegalTxn x ∧ t.issued = s.issued ++ [x] ∧ t.bus = some x ∧ t.phase.isWait = true ∧ t.phase ≠ s.phase ∧
    (s.phase = .idle ∨ ∃ d, s.answers = d :: t.answers)

theorem legalTxn_probe (a : BusAddr) : LegalTxn (.busRead a 1) := rfl

theorem legalTxn_write {a : BusAddr} {reg : RegAddr} {v : Value} (h : mappedReg reg = true) :
    LegalTxn (.busWrite a (wframe reg v)) := ⟨reg, v, h, rfl⟩

theorem legalTxn_read {a : BusAddr} {reg : RegAddr} (h : mappedReg reg = true) :
    LegalTxn (.busWriteRead a (rframe reg) 2) := ⟨rfl, reg, h, rfl⟩

/-- An admitted write is to a mapped register: WRITE's is checked, the wipers' are fixed (R161, R168, R169). -/
theorem mappedReg_of_writeRequested {reg : RegAddr} {v : Value} {r : Request} (h : WriteRequested reg v r) :
    mappedReg reg = true := by
  rcases h with ⟨-, h⟩ | ⟨-, rfl⟩ | ⟨-, rfl⟩
  · exact h
  · rfl
  · rfl

theorem ne_idle_of_isWait {p : Phase} (h : p.isWait = true) : p ≠ .idle := by rintro rfl; cases h

/-- The first transaction of an operation, issued from `IDLE`. -/
theorem issuesOne_of_idle {s u : State} {wait : Phase} {x : Txn} (idle : s.phase = .idle) (hw : wait.isWait = true)
    (hx : LegalTxn x) (hu : u.issued = s.issued) : IssuesOne s (issue wait x u) :=
  ⟨x, hx, by rw [issue_issued, hu], rfl, hw, idle ▸ ne_idle_of_isWait hw, .inl idle⟩

theorem SeqCase.issues {s t : State} (h : SeqCase s t) : IssuesNone s t ∨ IssuesOne s t := by
  cases h
  case held result => subst result; exact .inl ⟨rfl, .inl rfl⟩
  case probeIssue a idle _ result =>
    subst result; exact .inr (issuesOne_of_idle idle rfl (legalTxn_probe a) rfl)
  case writeIssue idle _ requested result =>
    subst result
    exact .inr (issuesOne_of_idle idle rfl (legalTxn_write (mappedReg_of_writeRequested requested)) rfl)
  case readIssue idle _ mapped result =>
    subst result; exact .inr (issuesOne_of_idle idle rfl (legalTxn_read mapped) rfl)
  case configureIssue idle _ result =>
    subst result; exact .inr (issuesOne_of_idle idle rfl (legalTxn_write rfl) rfl)
  case configureWritten waiting _ _ drawn _ result =>
    subst result
    exact .inr ⟨_, legalTxn_read rfl, rfl, rfl, rfl, by rw [waiting]; nofun, .inr ⟨_, drawn⟩⟩
  case configureRead result =>
    subst result; exact .inl ⟨compareReadBack_issued .., .inr (.inl (compareReadBack_phase ..))⟩
  case refused | failed | probeDone | writeDone | readDone => subst t; exact .inl ⟨rfl, .inr (.inl rfl)⟩

theorem StepCase.issues {s t : State} (h : StepCase s t) : IssuesNone s t ∨ IssuesOne s t := by
  cases h
  case reset result => subst result; exact .inl ⟨rfl, .inr (.inr rfl)⟩
  case waiting result => subst result; exact .inl ⟨rfl, .inl rfl⟩
  case taken result => subst result; exact .inl ⟨rfl, .inr (.inr rfl)⟩
  case accepted course => exact course.issues
  case continued course => exact course.issues

/-- ENC and TCU issue nothing, so a step issues what SEQ's part of it does. -/
theorem step_issues {s t : State} (h : step s = .next t) : IssuesNone s t ∨ IssuesOne s t := (step_cases h).issues

/-- Settles O33: a step issues none or one (`step_issues`), and under the invariant nothing is outstanding in `IDLE`. -/
theorem oneTransactionAtATime : Obligations.OneTransactionAtATime := by
  intro s t inv _ h
  rcases step_issues h with hnone | ⟨x, -, hissued, hbus, hwait, hmoves, hfree⟩
  · exact .inl hnone
  · refine .inr ⟨x, hissued, hbus, hwait, hmoves, hfree.imp_left fun idle => ?_⟩
    obtain ⟨-, -, -, hnothing⟩ := inv.2.clause idle
    exact hnothing

/-- Settles O40: after reset nothing is issued, and what a step adds, if anything, is one legal transaction. -/
theorem onlyLegalTransactionsAreIssued : Obligations.OnlyLegalTransactionsAreIssued := by
  refine ⟨nofun, fun s t hs h => ?_⟩
  rcases step_issues h with ⟨hissued, -⟩ | ⟨x, hx, hissued, -⟩
  · rwa [IssuedLegal, hissued]
  · rw [IssuedLegal, hissued, List.forall_mem_append, List.forall_mem_singleton]
    exact ⟨hs, hx⟩

/-! ### CONFIGURE's frames and comparison -/

/-- The write frame of CONFIGURE, in bits: of the nine flags the command byte carries the topmost (R76, R78). -/
theorem wframe_control_tconToRaw (t : Tcon) :
    wframe control (tconToRaw t) = [0x4#4 ++ 0b00#2 ++ 0b0#1 ++ t.extractLsb' 8 1, t.extractLsb' 0 8] := by
  have hm : (tconToRaw t).extractLsb' 8 2 = 0b0#1 ++ t.extractLsb' 8 1 := by
    refine Eq.trans (BitVec.eq_of_toNat_eq ?_) (BitVec.setWidth_eq_append (by decide))
    have := t.isLt
    simp [tconToRaw, Nat.shiftRight_eq_div_pow]
    omega
  have hl : valueLow (tconToRaw t) = t.extractLsb' 0 8 := by
    apply BitVec.eq_of_toNat_eq
    simp [valueLow, tconToRaw]
  rw [wframe, writeCommand_eq, hm, hl]
  generalize t.extractLsb' 8 1 = top
  congr 1
  revert top; decide

theorem rframe_control : rframe control = [0x4C#8] := rfl

theorem compareReadBack_rsp (got want : Tcon) (s : State) :
    (compareReadBack got want s).rsp = some ⟨if got = want then .ok else .configMismatch, 0#16, none⟩ := by
  by_cases h : got = want <;> simp [compareReadBack, tconEq, h, raiseError]

@[simp] theorem compareReadBack_bus (got want : Tcon) (s : State) : (compareReadBack got want s).bus = s.bus := by
  unfold compareReadBack; split <;> rfl

@[simp] theorem compareReadBack_answers (got want : Tcon) (s : State) :
    (compareReadBack got want s).answers = s.answers := by unfold compareReadBack; split <;> rfl

@[simp] theorem compareReadBack_presented (got want : Tcon) (s : State) :
    (compareReadBack got want s).presented = s.presented := by unfold compareReadBack; split <;> rfl

/-- The value compared is the low nine bits of the two bytes, the first received more significant (R55, R79). -/
theorem tconFromRaw_reasm (r0 r1 : Byte) : tconFromRaw (reasm r0 r1) = (r0 ++ r1).extractLsb' 0 9 := by
  rw [reasm_eq_append]; rfl

/-! ### The three steps of a CONFIGURE that completes -/

/-- After the step that accepts CONFIGURE in a block bound to `a`: its write frame is issued (R167). -/
def configureAccepted (t : Tcon) (a : BusAddr) (later : List (BitVec 32)) (s : State) : State :=
  issue .cfgWrWait (.busWrite a (wframe control (tconToRaw t)))
    (setDlo (valueLow (tconToRaw t)) (setCmd (writeCommand control (tconToRaw t))
      (setTreq t (setReq (configureRequest t) (setPresented later (afterUnits s))))))

/-- After the step that completes CONFIGURE's write: its read frame is issued (R64, R167). -/
def configureReadingBack (t : Tcon) (a : BusAddr) (later : List Draw) (s : State) : State :=
  issue .cfgRdWait (.busWriteRead a (rframe control) 2)
    (setCmd (readCommand control)
      (emit (.writeResult control (tconToRaw t) none) (completed later (afterUnits s))))

/-- After the step that completes CONFIGURE's read: what was read is compared with the request (R79, R167). -/
def configureCompared (t : Tcon) (r0 r1 : Byte) (later : List Draw) (s : State) : State :=
  compareReadBack (tconFromRaw (reasm r0 r1)) t
    (emit (.readResult control (.reply (reasm r0 r1))) (setReply (reasm r0 r1) (completed later (afterUnits s))))

theorem step_accepts_configure {t : Tcon} {a : BusAddr} {w : BitVec 32} {later : List (BitVec 32)} {s : State}
    (idle : s.phase = .idle) (bound : BoundTo a s) (hw : encode (.configure t) = .req w) (h : Presents w later s) :
    step s = .next (configureAccepted t a later s) := by
  obtain ⟨hbound, haddr⟩ := bound
  obtain rfl : packRequest (configureRequest t) = w := PortWord.req.inj hw
  have admitted : admission (configureRequest t) s.bound = none := by simp [hbound]
  rw [step_of_presents idle h, acceptWord, unpackRequest_packRequest, decodeRequest_configure]
  refine (operate_admitted (s := setPresented later (afterUnits s)) idle admitted).trans ?_
  exact issueWrite_eq haddr rfl rfl

/-- The step that completes a transaction of the CONFIGURE in the block. -/
theorem step_completes_configure {t : Tcon} {k : Draw → State → Result} {ph : Phase} {d : Draw} {later : List Draw}
    {s : State} (turn : SeqTurn s) (hw : ph.isWait = true) (hk : configureContinued t ph = some k)
    (h : Completing (configureRequest t) ph d later s) : step s = k d (completed later (afterUnits s)) := by
  obtain ⟨hp, hr, -, -⟩ := id h
  rw [step_of_seqTurn turn, seqStep_of_wait (isWait_of (by exact hp) hw),
    resume_of_request (by exact hr) (decodeRequest_configure t)]
  exact operate_completing (s := afterUnits s) hk (ne_idle_of_isWait hw) h

theorem step_reads_configure_back {t : Tcon} {a : BusAddr} {b0 b1 : Byte} {later : List Draw} {s : State}
    (turn : SeqTurn s) (haddr : s.busaddr = some a)
    (h : Completing (configureRequest t) .cfgWrWait (.ok b0 b1) later s) :
    step s = .next (configureReadingBack t a later s) := by
  rw [step_completes_configure turn rfl rfl h]
  exact issueRead_eq haddr rfl

theorem step_compares_configure {t : Tcon} {r0 r1 : Byte} {later : List Draw} {s : State}
    (turn : SeqTurn s) (htreq : s.treq = some t)
    (h : Completing (configureRequest t) .cfgRdWait (.ok r0 r1) later s) :
    step s = .next (configureCompared t r0 r1 later s) := by
  rw [step_completes_configure turn rfl rfl h, finishConfigureRead, completed_treq, afterUnits_treq, htreq,
    withValue_some]
  rfl

/-! ### The whole CONFIGURE -/

/-- The reset line is low, and no word now or later at TCU's port stops a step. -/
def NothingStops (s : State) : Prop := s.resetLine = false ∧ ∀ c ∈ s.tcuIn, ¬TcuReserved c

theorem NothingStops.seqTurn {s : State} (h : NothingStops s) : SeqTurn s :=
  ⟨h.1, fun c later hc => h.2 c (by simp [hc])⟩

/-- It stays so while the words at TCU's port are consumed and the reset line is left alone. -/
theorem NothingStops.tail {s u : State} (h : NothingStops s) (hl : u.resetLine = s.resetLine)
    (ht : u.tcuIn = s.tcuIn.tail) : NothingStops u :=
  ⟨hl.trans h.1, fun c hc => h.2 c (List.mem_of_mem_tail (ht ▸ hc))⟩

/-- Settles O28: acceptance, then the completions of the write and of the read-back, one step each. -/
theorem configureVerifiesWhatItWrote : Obligations.ConfigureVerifiesWhatItWrote := by
  intro t a x y r0 r1 draws w later s _ idle bound hw presents free answers
  obtain ⟨hbound, haddr⟩ := id bound
  obtain ⟨⟨line, -⟩, -⟩ := id presents
  have run : NothingStops s := ⟨line, free⟩
  let s₁ := configureAccepted t a later s
  have first : step s = .next s₁ := step_accepts_configure idle bound hw presents
  have run₁ : NothingStops s₁ := run.tail rfl rfl
  let s₂ := configureReadingBack t a (.ok r0 r1 :: draws) s₁
  have second : step s₁ = .next s₂ := step_reads_configure_back run₁.seqTurn haddr ⟨rfl, rfl, rfl, answers⟩
  have run₂ : NothingStops s₂ := run₁.tail rfl rfl
  have third : step s₂ = .next (configureCompared t r0 r1 draws s₂) :=
    step_compares_configure run₂.seqTurn rfl ⟨rfl, rfl, rfl, rfl⟩
  refine ⟨_, reaches_succ first (reaches_succ second (reaches_succ third (reaches_zero _))), ?_⟩
  simp [s₁, s₂, configureCompared, configureReadingBack, configureAccepted, compareReadBack_rsp, tconFromRaw_reasm,
    BoundTo, hbound, haddr, wframe_control_tconToRaw, rframe_control]

end Sys2Proof.Machine
end

section
/-! Proofs, family 30_encoding: decoder and encoder are inverse (O1, O2); the words the decoder reads by hand (O4) and
those it rejects (O3, O17); ENC's fields (O5), TCU's bits (O12) and the status codes (O44); a step runs what a word
decodes to (O20), and in `RESP` it takes the response (O30). -/

namespace Sys2Proof

/-! ### Command bytes -/

theorem encode_commandOf (op : CmdOp) (a m : Nat) : encode (commandOf op a m) = .cmd (encodeCmd op a m) := by
  cases op <;> rfl

theorem wellFormed_commandOf (op : CmdOp) (a m : Nat) :
    wellFormed (commandOf op a m) = true ↔ a < 16 ∧ m < 4 := by
  cases op <;> simp [commandOf, wellFormed, addrFits, msbFits]

/-- The decoder reads the operands back as ENC masks them (R92, R100). -/
theorem decodeCmd_encodeCmd (op : CmdOp) (a m : Nat) :
    decodeCmd (encodeCmd op a m) = commandOf op (a % 16) (m % 4) := by
  simp [encodeCmd]

theorem decode_encode_commandOf {op : CmdOp} {a m : Nat} (h : wellFormed (commandOf op a m) = true) :
    decode (encode (commandOf op a m)) = .ok (commandOf op a m) := by
  obtain ⟨ha, hm⟩ := (wellFormed_commandOf op a m).mp h
  rw [encode_commandOf, decode, decodeCmd_encodeCmd, Nat.mod_eq_of_lt ha, Nat.mod_eq_of_lt hm]

theorem wellFormed_decodeCmd (b : Byte) : wellFormed (decodeCmd b) = true :=
  (wellFormed_commandOf ..).mpr ⟨(cmdAddr b).isLt, (cmdMsb b).isLt⟩

theorem encode_decodeCmd (b : Byte) : encode (decodeCmd b) = .cmd b := by
  rw [decodeCmd, encode_commandOf, encodeCmd, opCode_opOfCode]
  simp only [BitVec.ofNat_toNat, BitVec.setWidth_eq, cmdAddr, cmdOpBits, cmdMsb, byte_eq_fields]

/-! ### Request words -/

theorem decode_packRequest {r : Request} {i : Instr} (h : decodeRequest r = .ok i) :
    decode (.req (packRequest r)) = .ok i := by
  rw [decode, unpackRequest_packRequest, h]

theorem encode_of_decodeRequest {r : Request} {i : Instr} (h : decodeRequest r = .ok i) :
    wellFormed i = true ∧ encode i = .req (packRequest r) := by
  rcases decodeRequest_ok h with ⟨a, rfl, rfl⟩ | ⟨reg, v, rfl, rfl⟩ | ⟨reg, rfl, rfl⟩ | ⟨t, rfl, rfl⟩ | ⟨v, rfl, rfl⟩ |
    ⟨v, rfl, rfl⟩ <;> exact ⟨rfl, rfl⟩

theorem operationOf_eq_none_iff (r : Request) : operationOf r = none ↔ reservedOpc r = true := by
  obtain ⟨opc, reg, rsv, baddr, data⟩ := r
  rcases opc_cases opc with rfl | rfl | rfl | rfl | rfl | rfl | rfl | rfl <;> simp [operationOf, reservedOpc]

/-- What the decoder rejects in a request: a reserved `opc`, or an unused field that is not zero. -/
theorem decodeRequest_error_iff (r : Request) :
    (∃ e, decodeRequest r = .error e) ↔ reservedOpc r = true ∨ unusedFieldsZero r = false := by
  rw [← operationOf_eq_none_iff, decodeRequest]
  cases operationOf r <;> cases unusedFieldsZero r <;> simp

/-! ### TCU's words -/

@[simp] theorem whenZero_true (i : Instr) : whenZero true i = .ok i := rfl

/-- A word whose operand A is nine bits wide is the encoder's form. -/
theorem encodeTcu_dataTcon (fn : BitVec 4) {a : Value} (b : Tcon) (h : dataAboveTcon a = 0#7) :
    encodeTcu fn (dataTcon a) b = .tcu fn a b := by
  rw [encodeTcu, zeroExtended_dataTcon a h]

theorem encode_of_decodeTcu {fn : BitVec 4} {a : Value} {b : Tcon} {i : Instr} (h : decodeTcu fn a b = .ok i) :
    wellFormed i = true ∧ encode i = .tcu fn a b := by
  rcases Machine.fn_cases fn with rfl | rfl | rfl | rfl | rfl | rfl | rfl | rfl | rfl | rfl | rfl | rfl | rfl | rfl |
    rfl | rfl
  -- `fn` 0xB to 0xF select nothing
  rotate_left 11
  iterate 5 · cases h
  all_goals
    obtain ⟨hz, rfl⟩ := Machine.whenZero_ok h
    simp only [Bool.and_eq_true, beq_iff_eq] at hz
    refine ⟨rfl, ?_⟩
  -- EMPTY, ALL_R0 and ALL_R1 have no operand; SET to INTERSECT have two of nine bits
  iterate 3 · obtain ⟨rfl, rfl⟩ := hz; rfl
  iterate 5 · exact encodeTcu_dataTcon _ b hz
  -- FROM_RAW, TO_RAW, EQ
  · obtain rfl := hz; rfl
  · obtain ⟨ha, rfl⟩ := hz; exact encodeTcu_dataTcon _ _ ha
  · exact encodeTcu_dataTcon _ b hz

/-! ### Decoder and encoder are inverse -/

theorem decode_encode {i : Instr} (h : wellFormed i = true) : decode (encode i) = .ok i := by
  cases i
  case cmdW => exact decode_encode_commandOf (op := .write) h
  case cmdInc => exact decode_encode_commandOf (op := .increment) h
  case cmdDec => exact decode_encode_commandOf (op := .decrement) h
  case cmdRd => exact decode_encode_commandOf (op := .read) h
  case probe a => exact decode_packRequest (decodeRequest_probe a)
  case write reg v => exact decode_packRequest (decodeRequest_write reg v)
  case read reg => exact decode_packRequest (decodeRequest_read reg)
  case configure t => exact decode_packRequest (decodeRequest_configure t)
  case setWiper0 v => exact decode_packRequest (decodeRequest_setWiper0 v)
  case setWiper1 v => exact decode_packRequest (decodeRequest_setWiper1 v)
  all_goals simp [encode, encodeTcu, decode, decodeTcu]

theorem encode_of_decode {p : PortWord} {i : Instr} (h : decode p = .ok i) : wellFormed i = true ∧ encode i = p := by
  cases p with
  | cmd b =>
    obtain rfl : decodeCmd b = i := Except.ok.inj h
    exact ⟨wellFormed_decodeCmd b, encode_decodeCmd b⟩
  | req w => simpa using encode_of_decodeRequest h
  | tcu fn a b => exact encode_of_decodeTcu h

end Sys2Proof

namespace Sys2Proof.Machine

/-- Settles O1, port by port: command bytes, request records, TCU's words. -/
theorem decodeOfEncodeIsTheInstruction : Obligations.DecodeOfEncodeIsTheInstruction := fun _ h => decode_encode h

/-- Settles O2: what each port's decoder accepts is what the encoder writes. -/
theorem decodedWordIsTheEncoding : Obligations.DecodedWordIsTheEncoding := fun _ _ h => encode_of_decode h

/-- Settles O4: the decoder is run on each word. -/
theorem exampleWordsDecode : Obligations.ExampleWordsDecode :=
  ⟨rfl, rfl, rfl, rfl, rfl, rfl, rfl, rfl, rfl, rfl, rfl, rfl, rfl, rfl, rfl, rfl, rfl, rfl, rfl, rfl, rfl⟩

/-! ### Bad form -/

/-- R83's bad form, in the decoder's two checks. -/
theorem badForm_iff (r : Request) : BadForm r ↔ reservedOpc r = true ∨ unusedFieldsZero r = false := by
  obtain ⟨opc, reg, rsv, baddr, data⟩ := r
  rcases opc_cases opc with rfl | rfl | rfl | rfl | rfl | rfl | rfl | rfl <;>
    simp [BadForm, reservedOpc, unusedFieldsZero, dataAboveTcon] <;> tauto

/-- Settles O3: both sides say that one of the decoder's two checks fails. -/
theorem requestSpellsNothingExactlyOnBadForm : Obligations.RequestSpellsNothingExactlyOnBadForm :=
  fun r => (decodeRequest_error_iff r).trans (badForm_iff r).symm

/-! ### ENC's fields, TCU's bits, the status codes -/

/-- Settles O5: ENC's byte is the concatenation of the masked fields (`enc_eq_append`). -/
theorem encoderMasksEachField : Obligations.EncoderMasksEachField := by
  intro a op m
  obtain ⟨haddr, hop, hmsb⟩ := commandFields (BitVec.ofNat 4 a) (opCode op) (BitVec.ofNat 2 m)
  rw [enc_eq_append]
  exact ⟨haddr, hop.trans (by cases op <;> rfl), hmsb⟩

/-- Every bit of `Y` is the flag's, and bits 15..9 are zero (R87). -/
theorem getLsbD_tconToRaw (t : Tcon) (i : Nat) : (tconToRaw t).getLsbD i = t.getLsbD i := by
  have inside : t.getLsbD i = true → i < 16 := fun h => (BitVec.lt_of_getLsbD h).trans (by decide)
  simpa [tconToRaw] using inside

theorem getLsbD_tconClear (t m : Tcon) (i : Nat) :
    (tconClear t m).getLsbD i = (t.getLsbD i && !m.getLsbD i) := by
  have inside : t.getLsbD i = true → i < 9 := BitVec.lt_of_getLsbD
  rw [tconClear, BitVec.getLsbD_and, BitVec.getLsbD_not]
  cases h : t.getLsbD i
  · rfl
  · simp [inside h]

/-- Settles O12: the values are the nine-bit results of R135, R136, R138 and R139 in `Y`, read bit by bit. -/
theorem tcuBitwiseFunctionsComplete : Obligations.TcuBitwiseFunctionsComplete := by
  intro t m s
  refine ⟨tconToRaw (tconSet t m), tconToRaw (tconClear t m), tconToRaw (tconUnion t m), tconToRaw (tconIntersect t m),
    rfl, rfl, rfl, rfl, fun i => ?_⟩
  simp only [getLsbD_tconToRaw]
  exact ⟨BitVec.getLsbD_or, getLsbD_tconClear t m i, BitVec.getLsbD_or, BitVec.getLsbD_and⟩

/-- Settles O44, status by status. -/
theorem statusCodesAreAsListed : Obligations.StatusCodesAreAsListed := by
  refine ⟨rfl, rfl, rfl, rfl, rfl, rfl, rfl, fun x => ?_, fun x y h => ?_⟩
  · cases x <;> decide
  · cases x <;> cases y <;> cases h <;> rfl

/-! ### TCU's refusal -/

/-- Settles O17: SEQ refuses nothing, so a step is refused exactly when TCU refuses the word at its port. -/
theorem tcuRefusesExactlyTheReservedWords : Obligations.TcuRefusesExactlyTheReservedWords := by
  intro c later s q hc
  constructor
  · intro h
    rcases tcuPortOk_or s with hok | ⟨c', later', hc', hr⟩
    · rw [step_eq hok] at h
      exact absurd h (seqOrReset_not_refused q _)
    · obtain ⟨rfl, rfl⟩ := List.cons.inj (hc.symm.trans hc')
      rw [step_refused hc hr] at h
      exact ⟨(Host.Outcome.refused.inj h).symm, hr⟩
  · rintro ⟨rfl, hr⟩
    exact step_refused hc hr

/-! ### A step runs what the words decode to -/

theorem encStep_of_cons {b : Byte} {later : List Byte} {s : State} (h : s.encIn = b :: later) :
    encStep s = exec (decodeCmd b) (setEncIn later s) := by
  simp only [encStep, encPort, h]

theorem tcuStep_of_decoded {c : TcuCall} {later : List TcuCall} {i : Instr} {s : State} (h : s.tcuIn = c :: later)
    (hd : decodeTcu c.fn c.a c.b = .ok i) : tcuStep s = exec i (setTcuIn later s) := by
  simp only [tcuStep, tcuPort, h, runTcuCall, hd]

theorem acceptWord_of_decoded {w : BitVec 32} {i : Instr} (hd : decodeRequest (unpackRequest w) = .ok i) (s : State) :
    acceptWord exec w s = exec i s := by
  simp only [acceptWord, hd]

/-- In `IDLE` with nothing presented, SEQ waits. -/
theorem seqOrReset_waits {s : State} (hl : s.resetLine = false) (hp : s.phase = .idle) (hq : s.presented = []) :
    seqOrReset s = .next s := by
  simp [seqOrReset, seqStep, hl, hp, hq]

theorem not_tcuReserved_of_decoded {c : TcuCall} {i : Instr} (hd : decodeTcu c.fn c.a c.b = .ok i) :
    ¬TcuReserved c := by
  intro h
  obtain ⟨e, he⟩ := (decodeTcu_error_iff c).mpr h
  rw [hd] at he
  cases he

/-- While SEQ waits, a step is the units' answers. -/
theorem step_of_waiting {s : State} (h : TcuPortOk s) (hl : s.resetLine = false) (hp : s.phase = .idle)
    (hq : s.presented = []) : step s = .next (afterUnits s) := by
  rw [step_eq h, seqOrReset_waits (by exact hl) (by exact hp) (by exact hq)]

/-- Settles O20, a conjunct for each port: within a step, alone, and in a wait value. -/
theorem stepRunsTheDecodedInstruction : Obligations.StepRunsTheDecodedInstruction := by
  refine ⟨?_, ?_, ?_, ?_, ?_, ?_⟩
  · intro b later i s hb hd
    obtain rfl : decodeCmd b = i := Except.ok.inj hd
    rw [step, encStep_of_cons hb]
    rfl
  · intro c later i s u hu hc hd
    rw [encStep_eq] at hu
    obtain rfl := Host.Outcome.next.inj hu
    rw [step, encStep_eq, andThen_next, tcuStep_of_decoded (by exact hc) hd]
    rfl
  · intro b i s hl hp hq hb hc hd
    obtain rfl : decodeCmd b = i := Except.ok.inj hd
    have ok : TcuPortOk s := fun c later h => by rw [hc] at h; cases h
    rw [step_of_waiting ok hl hp hq, exec_decodeCmd]
    simp [afterUnits, setEncOut, hb, hc]
  · intro c i s hl hp hq hb hc hd
    have ok : TcuPortOk s := fun c' later h => by
      obtain ⟨rfl, -⟩ := List.cons.inj (hc.symm.trans h)
      exact not_tcuReserved_of_decoded hd
    rw [step_of_waiting ok hl hp hq, exec_decodeTcu hd]
    simp [afterUnits, setTcuOut, hb, hc]
  · intro w later i s hp hw hd
    rw [step_of_presents hp hw, acceptWord_of_decoded hd]
    rfl
  · intro r i s hs hw hr hd
    rw [step_of_seqTurn hs, seqStep_of_wait (by exact hw), resume_of_request (by exact hr) hd]

/-! ### Taking the response -/

theorem respStep_held {s : State} (h : s.takes = 0) : respStep s = .next s := by
  simp only [respStep, h]

theorem respStep_takes {n : Nat} {s : State} (h : s.takes = n + 1) :
    respStep s = .next (takeResponse (setTakes n s)) := by
  simp only [respStep, h]

/-- Settles O30: in `RESP` SEQ's part of the step holds the response or takes it. -/
theorem takingTheResponseReturnsToIdle : Obligations.TakingTheResponseReturnsToIdle := by
  intro s hs hp
  have h : step s = respStep (afterUnits s) := by
    rw [step_of_seqTurn hs, seqStep_of_resp (by exact hp)]
  exact ⟨fun h0 => h.trans (respStep_held (s := afterUnits s) h0),
    fun n hn => h.trans (respStep_takes (s := afterUnits s) hn)⟩

end Sys2Proof.Machine
end

section
/-! Proofs, family 40_command_encoder: ENC is a bijection from the in-range triples to the bytes (O6); the frames and
the reassembly in bits (O7), what of the value they carry (O8) and what an echoed frame gives back (O9); the four
command codes run (O10). -/

namespace Sys2Proof.Machine

/-! ### ENC and the decoder -/

/-- Decoding reads in-range operands back from ENC's byte (R92, R105). -/
theorem decodeCmd_enc {a m : Nat} (op : CmdOp) (ha : a < 16) (hm : m < 4) :
    decodeCmd (enc a op m) = commandOf op a m := by
  rw [enc_eq_encodeCmd, decodeCmd_encodeCmd, Nat.mod_eq_of_lt ha, Nat.mod_eq_of_lt hm]

theorem commandOf_injective {a a' m m' : Nat} {op op' : CmdOp} (h : commandOf op a m = commandOf op' a' m') :
    a = a' ∧ op = op' ∧ m = m' := by
  cases op <;> cases op' <;> cases h <;> exact ⟨rfl, rfl, rfl⟩

/-- A byte is ENC of its own fields (R105). -/
theorem enc_fields (b : Byte) : enc (cmdAddr b).toNat (opOfCode (cmdOpBits b)) (cmdMsb b).toNat = b := by
  rw [enc_eq_encodeCmd]
  exact PortWord.cmd.inj ((encode_commandOf ..).symm.trans (encode_decodeCmd b))

/-- Settles O6: decoding is the inverse on in-range triples, so ENC is injective there; each byte is hit by its own
fields. -/
theorem encoderIsInjectiveAndOnto : Obligations.EncoderIsInjectiveAndOnto := by
  refine ⟨?injective, ?onto, fun a op m ha hm => decodeCmd_enc op ha hm⟩
  case injective =>
    intro a a' m m' op op' ha ha' hm hm' h
    apply commandOf_injective
    rw [← decodeCmd_enc op ha hm, h, decodeCmd_enc op' ha' hm']
  case onto =>
    exact fun b => ⟨_, _, _, (cmdAddr b).isLt, (cmdMsb b).isLt, enc_fields b⟩

/-! ### The frames in bits -/

theorem wframe_eq (a : RegAddr) (v : Value) :
    wframe a v = [a ++ 0b00#2 ++ v.extractLsb' 8 2, v.extractLsb' 0 8] := by
  rw [wframe, writeCommand_eq, valueLow]

theorem rframe_eq (a : RegAddr) : rframe a = [a ++ 0b11#2 ++ 0b00#2] := by
  rw [rframe, readCommand_eq]

/-- Settles O7: ENC's fields and the two bytes stand side by side. -/
theorem framesAreBitExact : Obligations.FramesAreBitExact := ⟨wframe_eq, rframe_eq, reasm_eq_append⟩

/-- The mask of R109 keeps the low ten bits. -/
theorem getLsbD_and_lowTen (v : Value) (i : Nat) : (v &&& 0x3FF#16).getLsbD i = (decide (i < 10) && v.getLsbD i) := by
  have mask : (0x3FF#16).getLsbD i = decide (i < 10) := by
    rw [BitVec.getLsbD_ofNat, Nat.testBit_two_pow_sub_one (n := 10), Bool.and_eq_right_iff_imp]
    simp only [decide_eq_true_eq]
    omega
  rw [BitVec.getLsbD_and, mask, Bool.and_comm]

/-- A field within the low ten bits does not see the mask. -/
theorem extractLsb'_and_lowTen {start len : Nat} (v : Value) (h : start + len ≤ 10) :
    (v &&& 0x3FF#16).extractLsb' start len = v.extractLsb' start len := by
  apply BitVec.eq_of_getLsbD_eq
  intro i hi
  have low : start + i < 10 := by omega
  simp only [BitVec.getLsbD_extractLsb', getLsbD_and_lowTen, low, decide_true, Bool.true_and]

/-- What the mask keeps is the field of the low ten bits. -/
theorem and_lowTen_eq_append (v : Value) : v &&& 0x3FF#16 = 0#6 ++ v.extractLsb' 0 10 := by
  apply BitVec.eq_of_getLsbD_eq
  intro i hi
  rw [getLsbD_and_lowTen, BitVec.getLsbD_append]
  by_cases low : i < 10 <;> simp [low]

/-- Settles O8: both fields a write frame takes of the value lie within its low ten bits. -/
theorem writeFrameTruncatesToTenBits : Obligations.WriteFrameTruncatesToTenBits := by
  intro a v
  rw [wframe_eq, wframe_eq, extractLsb'_and_lowTen v (by decide), extractLsb'_and_lowTen v (by decide)]

/-- The two bytes of a write frame, reassembled: address, operation and the ten bits side by side (R110). -/
theorem reasm_of_wframe {a : RegAddr} {v : Value} {b0 b1 : Byte} (h : wframe a v = [b0, b1]) :
    reasm b0 b1 = a ++ 0b00#2 ++ v.extractLsb' 0 10 := by
  rw [wframe_eq] at h
  obtain ⟨rfl, rfl⟩ : a ++ 0b00#2 ++ v.extractLsb' 8 2 = b0 ∧ v.extractLsb' 0 8 = b1 := by simpa using h
  have low_ten : v.extractLsb' 8 2 ++ v.extractLsb' 0 8 = v.extractLsb' 0 10 :=
    BitVec.extractLsb'_append_extractLsb'_eq_extractLsb' (by rfl)
  rw [reasm_eq_append, ← low_ten, BitVec.append_assoc]
  rfl

/-- Settles O9: the mask keeps the ten bits of the reassembled value, and above them stand address and operation. -/
theorem echoedFrameGivesTheValueBack : Obligations.EchoedFrameGivesTheValueBack := by
  intro a v b0 b1 h
  rw [reasm_of_wframe h]
  constructor
  · rw [and_lowTen_eq_append, and_lowTen_eq_append, BitVec.extractLsb'_append_eq_right]
  · exact BitVec.extractLsb'_append_eq_left

/-! ### The command codes -/

/-- A command code packs its operands onto ENC's output, whatever they are (R100 to R104). -/
theorem exec_commandOf (op : CmdOp) (a m : Nat) (s : State) :
    exec (commandOf op a m) s = .next (setEncOut (some (BitVec.ofNat 4 a ++ opCode op ++ BitVec.ofNat 2 m)) s) := by
  rw [← enc_eq_append]
  cases op <;> rfl

/-- Settles O10: one command code for each operation. -/
theorem commandCodesComplete : Obligations.CommandCodesComplete := fun a m s =>
  ⟨exec_commandOf .write a m s, exec_commandOf .increment a m s, exec_commandOf .decrement a m s,
    exec_commandOf .read a m s⟩

end Sys2Proof.Machine
end

section
/-! Proofs, family 41_tcon: the functions of TCU as instructions: the constructors (O11), the flags of TEST and EQ
(O13), the conversions (O14) and what FROM_RAW drops (O15); the flag masks (O16). -/

namespace Sys2Proof.Machine

/-! ### The flags of TEST and EQ, bit by bit -/

/-- A mask lies within a value exactly when intersecting with the value leaves the mask as it is (R137). -/
theorem tconTest_iff (t m : Tcon) :
    tconTest t m = true ↔ ∀ i < 9, m.getLsbD i = true → t.getLsbD i = true := by
  rw [tconTest, beq_iff_eq, BitVec.eq_of_getLsbD_eq_iff]
  simp only [BitVec.getLsbD_and, Bool.and_eq_right_iff_imp]

theorem tconEq_iff (t m : Tcon) : tconEq t m = true ↔ ∀ i < 9, m.getLsbD i = t.getLsbD i := by
  rw [tconEq, beq_iff_eq, eq_comm, BitVec.eq_of_getLsbD_eq_iff]

/-- Settles O13: the flags are those of R137 and R142, read bit by bit. -/
theorem tcuFlagFunctionsComplete : Obligations.TcuFlagFunctionsComplete := fun t m _ =>
  ⟨tconTest t m, tconEq t m, rfl, rfl, tconTest_iff t m, tconEq_iff t m⟩

/-! ### Constructors and flag masks -/

/-- Settles O16: each mask is one shifted to its flag's bit (R33), each union four of them (R34). -/
theorem flagMasksAreAsListed : Obligations.FlagMasksAreAsListed := by
  unfold Obligations.FlagMasksAreAsListed
  decide

/-- Settles O11: the three constants, widened onto `Y`. -/
theorem tcuConstructorsComplete : Obligations.TcuConstructorsComplete := fun _ => ⟨rfl, rfl, rfl⟩

/-! ### Conversions -/

theorem exec_tcuToRaw (t : Tcon) (s : State) : exec (.tcuToRaw t) s = .next (setTcuOut (some (.y (0#7 ++ t))) s) := by
  rw [← tconToRaw_eq_append]
  rfl

/-- FROM_RAW shows on `Y` what TO_RAW shows of the nine bits it keeps (R87, R140). -/
theorem exec_tcuFromRaw (r : Value) (s : State) : exec (.tcuFromRaw r) s = exec (.tcuToRaw (tconFromRaw r)) s := rfl

/-- Settles O14: both put a nine-bit value on `Y`, with zeros above it. -/
theorem tcuConversionsComplete : Obligations.TcuConversionsComplete := fun r t s =>
  ⟨(exec_tcuFromRaw r s).trans (exec_tcuToRaw _ s), exec_tcuToRaw t s⟩

/-- FROM_RAW's word requires nothing of its operand `A` (R87, R140). -/
theorem decode_fromRaw (r : Value) : decode (.tcu 0x8#4 r 0#9) = .ok (.tcuFromRaw r) := rfl

@[simp] theorem tconFromRaw_tconToRaw (t : Tcon) : tconFromRaw (tconToRaw t) = t := by
  rw [tconToRaw_eq_append, tconFromRaw_append]

/-- Settles O15: the high bits are seen neither by the decoder nor by FROM_RAW. -/
theorem fromRawDropsHighBits : Obligations.FromRawDropsHighBits := fun t high =>
  ⟨decode_fromRaw _, tconFromRaw_append high t, tconFromRaw_tconToRaw t⟩

end Sys2Proof.Machine
end

section
/-! Proofs, family 42_sequencer: the admission checks at the request port (O21), the six operations from acceptance to
response (O22 to O27), and requests at a busy block (O29). -/

namespace Sys2Proof.Machine

/-! ### A request operation is `operate` -/

/-- A request that decodes is run as `operate` on that request, with no continuation once it has responded. -/
theorem exec_eq_operate {r : Request} {i : Instr} (hd : decodeRequest r = .ok i) :
    ∃ begin continued, continued .resp = none ∧ ∀ s, exec i s = operate r begin continued s := by
  rcases decodeRequest_ok hd with ⟨a, rfl, rfl⟩ | ⟨reg, v, rfl, rfl⟩ | ⟨reg, rfl, rfl⟩ | ⟨t, rfl, rfl⟩ | ⟨v, rfl, rfl⟩ |
    ⟨v, rfl, rfl⟩ <;> exact ⟨_, _, rfl, fun _ => rfl⟩

/-- An operation refused in `IDLE` responds, and that is all. -/
theorem operate_refused {r : Request} {begin : State → Result} {continued : Phase → Option (Draw → State → Result)}
    {s : State} {status : Status} (hp : s.phase = .idle) (ha : admission r s.bound = some status) :
    operate r begin continued s = .next (refusedWith status r s) :=
  (operate_idle hp).trans (accept_refused ha)

/-! ### Admission at the request port -/

/-- A word that fails an admission check is refused by the step that accepts it, a word that spells no operation
included (R161). -/
theorem step_of_unadmitted {w : BitVec 32} {later : List (BitVec 32)} {status : Status} {s : State}
    (idle : s.phase = .idle) (h : Presents w later s) (ha : admission (unpackRequest w) s.bound = some status) :
    step s = .next (refusedWith status (unpackRequest w) { afterUnits s with presented := later }) := by
  rw [step_of_presents idle h, acceptWord]
  cases hd : decodeRequest (unpackRequest w) with
  | ok i =>
    obtain ⟨begin, continued, -, hexec⟩ := exec_eq_operate hd
    exact (hexec _).trans (operate_refused idle ha)
  | error e =>
    have bad := (decodeRequest_error_iff_badForm (unpackRequest w) s.bound).mp ⟨e, hd⟩
    obtain rfl : Status.refBadForm = status := Option.some.inj (bad.symm.trans ha)
    rfl

theorem admission_of_badForm {r : Request} (h : BadForm r) (b : Bool) : admission r b = some .refBadForm :=
  (decodeRequest_error_iff_badForm r b).mp ((requestSpellsNothingExactlyOnBadForm r).mpr h)

theorem step_of_badForm {w : BitVec 32} {later : List (BitVec 32)} {s : State} (idle : s.phase = .idle)
    (h : Presents w later s) (bad : BadForm (unpackRequest w)) :
    step s = .next (refusedWith .refBadForm (unpackRequest w) { afterUnits s with presented := later }) :=
  step_of_unadmitted idle h (admission_of_badForm bad _)

/-- What is checked of a request with good form: the handle, then the register (R161). -/
theorem admission_of_goodForm {r : Request} (h : ¬BadForm r) (b : Bool) :
    admission r b =
      if r.opc = 0#3 then (if b then some .refAlreadyBound else none)
      else if b = false then some .refNotBound
      else if (r.opc = 1#3 ∨ r.opc = 2#3) ∧ mappedReg r.reg = false then some .refBadRegister
      else none := by
  rw [badForm_iff, not_or, Bool.not_eq_true, Bool.not_eq_false] at h
  obtain ⟨hopc, hzero⟩ := h
  by_cases h0 : r.opc = 0#3 <;> cases b <;> simp [admission, hopc, hzero, h0]

theorem decodeRequest_of_goodForm {r : Request} (h : ¬BadForm r) : ∃ i, decodeRequest r = .ok i := by
  cases hd : decodeRequest r with
  | ok i => exact ⟨i, rfl⟩
  | error e => exact absurd ((requestSpellsNothingExactlyOnBadForm r).mp ⟨e, hd⟩) h

/-- A request with good form, of the right kind for the handle and of a mapped register, passes all checks (R161). -/
theorem admission_passes {r : Request} {b : Bool} (h : ¬BadForm r) (handle : r.opc = 0#3 ↔ b = false)
    (mapped : r.opc = 1#3 ∨ r.opc = 2#3 → Mapped r.reg) : admission r b = none := by
  rw [admission_of_goodForm h]
  by_cases h0 : r.opc = 0#3
  · simp [h0, handle.mp h0]
  · rw [if_neg h0, if_neg (mt handle.mpr h0), if_neg]
    rintro ⟨hreg, hm⟩
    rw [(mappedReg_iff _).mpr (mapped hreg)] at hm
    cases hm

/-- The one transaction that an admitted request issues, with what stays of the response and the handle (R160). -/
def IssuesFirst (r : Request) (s t : State) (x : Txn) : Prop :=
  t.req = some r ∧ t.phase.isWait = true ∧ t.bus = some x ∧ t.issued = s.issued ++ [x] ∧ t.rsp = s.rsp ∧
    t.bound = s.bound ∧ t.busaddr = s.busaddr

theorem exec_admitted {r : Request} {i : Instr} {s : State} (hd : decodeRequest r = .ok i) (idle : s.phase = .idle)
    (ha : admission r s.bound = none) (haddr : r.opc ≠ 0#3 → ∃ a, s.busaddr = some a) :
    ∃ t x, exec i s = .next t ∧ IssuesFirst r s t x := by
  have writes {reg : RegAddr} {v : Value} (hopc : r.opc ≠ 0#3) :
      ∃ t x, operate r (beginWrite reg v) (writeContinued reg v) s = .next t ∧ IssuesFirst r s t x := by
    obtain ⟨a, h⟩ := haddr hopc
    exact ⟨_, _, (operate_admitted idle ha).trans (issueWrite_eq h rfl rfl), rfl, rfl, rfl, rfl, rfl, rfl, rfl⟩
  rcases decodeRequest_ok hd with ⟨a, rfl, rfl⟩ | ⟨reg, v, rfl, rfl⟩ | ⟨reg, rfl, rfl⟩ | ⟨t, rfl, rfl⟩ | ⟨v, rfl, rfl⟩ |
    ⟨v, rfl, rfl⟩
  · exact ⟨_, _, operate_admitted idle ha, rfl, rfl, rfl, rfl, rfl, rfl, rfl⟩
  · exact writes nofun
  · obtain ⟨a, h⟩ := haddr nofun
    exact ⟨_, _, (operate_admitted idle ha).trans (issueRead_eq h rfl), rfl, rfl, rfl, rfl, rfl, rfl, rfl⟩
  · obtain ⟨a, h⟩ := haddr nofun
    exact ⟨_, _, (operate_admitted idle ha).trans (issueWrite_eq h rfl rfl), rfl, rfl, rfl, rfl, rfl, rfl, rfl⟩
  · exact writes nofun
  · exact writes nofun

/-- Settles O21: a request with bad form fails the first check, and of one with good form `admission_of_goodForm` says
which check fails, or that none does. -/
theorem admissionChecksInOrder : Obligations.AdmissionChecksInOrder := by
  rintro w r later s idle presents rfl handle
  refine ⟨step_of_badForm idle presents, fun good h0 hb => ?_, fun good h0 hb => ?_, fun good hb hreg hm => ?_,
    fun good handleOk mapped => ?_⟩
  · exact step_of_unadmitted idle presents (by simp [admission_of_goodForm good, h0, hb])
  · exact step_of_unadmitted idle presents (by simp [admission_of_goodForm good, h0, hb])
  · have h0 : (unpackRequest w).opc ≠ 0#3 := by rcases hreg with h | h <;> rw [h] <;> decide
    have unmapped : mappedReg (unpackRequest w).reg = false := by simpa [← mappedReg_iff] using hm
    exact step_of_unadmitted idle presents (by simp [admission_of_goodForm good, h0, hb, hreg, unmapped])
  · obtain ⟨i, hd⟩ := decodeRequest_of_goodForm good
    rw [step_of_presents idle presents, acceptWord_of_decoded hd]
    refine exec_admitted hd idle (admission_passes good handleOk mapped) fun h0 => Option.isSome_iff_exists.mp ?_
    have hb : s.bound = true := by simpa using mt handleOk.mpr h0
    exact handle.symm.trans hb

/-! ### Completions -/

/-- From `u`, nothing has happened but that events were emitted. -/
def Emitted (u v : State) : Prop := ∃ es, v = { u with events := u.events ++ es }

theorem emitted_emit (e : DiagEvent) (u : State) : Emitted u (emit e u) := by
  cases h : u.diagPresent with
  | false => exact ⟨[], by simp [emit, h]⟩
  | true => exact ⟨[e], by simp [emit, h]⟩

theorem Emitted.trans {u v w : State} (h : Emitted u v) (h' : Emitted v w) : Emitted u w := by
  obtain ⟨es, rfl⟩ := h
  obtain ⟨es', rfl⟩ := h'
  exact ⟨es ++ es', by simp⟩

/-- The completion that ends an operation: events, then the response. -/
theorem operate_responds {r : Request} {begin : State → Result} {continued : Phase → Option (Draw → State → Result)}
    {k : Draw → State → Result} {ph : Phase} {d : Draw} {later : List Draw} {s u v : State} {status : Status}
    {data : Value} {err : Option TErr} (h : Completing r ph d later s) (hk : continued ph = some k)
    (hp : ph.isWait = true) (hv : Emitted u v)
    (hend : k d (completed later s) = .next (respond status data err v)) :
    ∃ es, operate r begin continued s = .next { u with
      rsp := some { status := status, data := data, err := err }, phase := .resp, events := u.events ++ es } := by
  obtain ⟨es, rfl⟩ := hv
  exact ⟨es, (operate_completing hk (ne_idle_of_isWait hp) h).trans hend⟩

/-- A failed transaction ends its operation with the transport's error (R201, R205). -/
theorem operate_fails {r : Request} {begin : State → Result} {continued : Phase → Option (Draw → State → Result)}
    {k : Draw → State → Result} {ph : Phase} {e : TErr} {later : List Draw} {s : State} {event : DiagEvent}
    (h : Completing r ph (.err e) later s) (hk : continued ph = some k) (hp : ph.isWait = true)
    (hend : ∀ u, k (.err e) u = failTransport event e u) :
    ∃ es, operate r begin continued s = .next { s with
      bus := none, answers := later, rsp := some { status := .transportError, data := 0#16, err := some e },
      phase := .resp, events := s.events ++ es } :=
  operate_responds h hk hp (emitted_emit event (completed later s)) (hend _)

/-! ### PROBE -/

/-- Settles O22: the course of PROBE (`execProbe`), a conjunct for each of its ways. -/
theorem probeBindsTheBlock : Obligations.ProbeBindsTheBlock := by
  refine fun a s => ⟨fun idle hb => operate_admitted idle (by simp [hb]),
    fun b0 b1 later h => ?_, fun e later h => operate_fails h rfl rfl fun _ => rfl,
    fun idle hb => operate_refused idle (by simp [hb]), fun w later idle presents hopc hz => ?_⟩
  · exact operate_responds h rfl rfl (emitted_emit _ (bindTo a (completed later s))) rfl
  · exact step_of_badForm idle presents (by simp only [BadForm, hopc]; tauto)

/-! ### The writes -/

section
variable {r : Request} {reg : RegAddr} {v : Value} {s : State}

/-- A write once admitted: its frame goes to `BUSADDR` (R106, R165). -/
theorem writeCourse_issues {a : BusAddr} (idle : s.phase = .idle) (haddr : s.busaddr = some a)
    (ha : admission r s.bound = none) :
    operate r (beginWrite reg v) (writeContinued reg v) s = .next { s with
      req := some r, cmd := some (reg ++ 0b00#2 ++ v.extractLsb' 8 2),
      dlo := some (v.extractLsb' 0 8), phase := .wrWait,
      bus := some (.busWrite a [reg ++ 0b00#2 ++ v.extractLsb' 8 2, v.extractLsb' 0 8]),
      issued := s.issued ++ [.busWrite a [reg ++ 0b00#2 ++ v.extractLsb' 8 2, v.extractLsb' 0 8]] } := by
  rw [operate_admitted idle ha, ← writeCommand_eq]
  exact issueWrite_eq haddr rfl rfl

theorem writeCourse_completes {b0 b1 : Byte} {later : List Draw} (h : Completing r .wrWait (.ok b0 b1) later s) :
    ∃ es, operate r (beginWrite reg v) (writeContinued reg v) s = .next { s with
      bus := none, answers := later, rsp := some { status := .ok, data := 0#16, err := none }, phase := .resp,
      events := s.events ++ es } :=
  operate_responds h rfl rfl (emitted_emit _ (completed later s)) rfl

theorem writeCourse_fails {e : TErr} {later : List Draw} (h : Completing r .wrWait (.err e) later s) :
    ∃ es, operate r (beginWrite reg v) (writeContinued reg v) s = .next { s with
      bus := none, answers := later, rsp := some { status := .transportError, data := 0#16, err := some e },
      phase := .resp, events := s.events ++ es } :=
  operate_fails h rfl rfl fun _ => rfl

end

/-- Settles O23: the write course, with WRITE's own checks. -/
theorem writeSendsOneFrame : Obligations.WriteSendsOneFrame := by
  refine fun reg v s => ⟨fun a idle ⟨hb, haddr⟩ hm => ?_, fun _ _ _ => writeCourse_completes,
    fun _ _ => writeCourse_fails, fun idle hb => operate_refused idle (by simp [hb]), fun idle hb hm => ?_,
    fun w later idle presents hopc hz => ?_⟩
  · exact writeCourse_issues idle haddr (by simp [hb, (mappedReg_iff reg).mpr hm])
  · exact operate_refused idle (by simp [hb, mappedReg_iff, hm])
  · exact step_of_badForm idle presents (by simp only [BadForm, hopc]; tauto)

/-- Settles O26: the write course on register 0x0. -/
theorem setWiper0WritesRegister0 : Obligations.SetWiper0WritesRegister0 := by
  refine fun v s => ⟨fun a idle ⟨hb, haddr⟩ => writeCourse_issues idle haddr (by simp [hb]),
    fun _ _ _ => writeCourse_completes, fun _ _ => writeCourse_fails,
    fun idle hb => operate_refused idle (by simp [hb]), fun w later idle presents hopc hz => ?_⟩
  exact step_of_badForm idle presents (by simp only [BadForm, hopc]; tauto)

/-- Settles O27: the write course on register 0x1. -/
theorem setWiper1WritesRegister1 : Obligations.SetWiper1WritesRegister1 := by
  refine fun v s => ⟨fun a idle ⟨hb, haddr⟩ => writeCourse_issues idle haddr (by simp [hb]),
    fun _ _ _ => writeCourse_completes, fun _ _ => writeCourse_fails,
    fun idle hb => operate_refused idle (by simp [hb]), fun w later idle presents hopc hz => ?_⟩
  exact step_of_badForm idle presents (by simp only [BadForm, hopc]; tauto)

/-! ### READ -/

/-- Settles O24: the course of READ (`execRead`), a conjunct for each of its ways. -/
theorem readReturnsTheWholeReply : Obligations.ReadReturnsTheWholeReply := by
  refine fun reg s => ⟨fun a idle ⟨hb, haddr⟩ hm => ?_, fun r0 r1 later h => ?_,
    fun e later h => operate_fails h rfl rfl fun _ => rfl, fun idle hb => operate_refused idle (by simp [hb]),
    fun idle hb hm => ?_, fun w later idle presents hopc hz => ?_⟩
  · rw [← readCommand_eq]
    refine (operate_admitted idle (by simp [hb, (mappedReg_iff reg).mpr hm])).trans ?_
    exact issueRead_eq haddr rfl
  · rw [← reasm_eq_append]
    exact operate_responds h rfl rfl (emitted_emit _ (setReply (reasm r0 r1) (completed later s))) rfl
  · exact operate_refused idle (by simp [hb, mappedReg_iff, hm])
  · exact step_of_badForm idle presents (by simp only [BadForm, hopc]; tauto)

/-! ### CONFIGURE -/

theorem compareReadBack_of_eq {got want : Tcon} (h : got = want) (s : State) :
    compareReadBack got want s = respond .ok 0x0000#16 none s := by
  simp [compareReadBack, tconEq, h]

theorem compareReadBack_of_ne {got want : Tcon} (h : got ≠ want) (s : State) :
    compareReadBack got want s = respond .configMismatch 0x0000#16 none (emit (.mismatch want got) s) := by
  simp [compareReadBack, tconEq, h, raiseError]

/-- CONFIGURE once admitted: the request is kept, and its write frame goes to `BUSADDR` (R78, R167). -/
theorem execConfigure_issues {t : Tcon} {a : BusAddr} {s : State} (idle : s.phase = .idle) (bound : BoundTo a s) :
    exec (.configure t) s = .next { s with
      req := some (configureRequest t), treq := some t, cmd := some (writeCommand control (tconToRaw t)),
      dlo := some (valueLow (tconToRaw t)), phase := .cfgWrWait,
      bus := some (.busWrite a (wframe control (tconToRaw t))),
      issued := s.issued ++ [.busWrite a (wframe control (tconToRaw t))] } := by
  obtain ⟨hb, haddr⟩ := bound
  exact (operate_admitted idle (by simp [hb])).trans (issueWrite_eq haddr rfl rfl)

/-- CONFIGURE's write completed: the read-back is issued to `BUSADDR` in the same step (R64, R167). -/
theorem execConfigure_reads_back {t : Tcon} {a : BusAddr} {b0 b1 : Byte} {later : List Draw} {s : State}
    (haddr : s.busaddr = some a) (h : Completing (configureRequest t) .cfgWrWait (.ok b0 b1) later s) :
    ∃ es, exec (.configure t) s = .next { s with
      cmd := some 0x4C#8, phase := .cfgRdWait, answers := later, bus := some (.busWriteRead a [0x4C#8] 2),
      issued := s.issued ++ [.busWriteRead a [0x4C#8] 2], events := s.events ++ es } := by
  have course : exec (.configure t) s = finishConfigureWrite t (.ok b0 b1) (completed later s) :=
    operate_completing (ph := .cfgWrWait) rfl nofun h
  obtain ⟨es, hes⟩ := emitted_emit (.writeResult control (tconToRaw t) none) (completed later s)
  refine ⟨es, ?_⟩
  rw [course, finishConfigureWrite, hes]
  exact issueRead_eq haddr rfl

/-- CONFIGURE's read completed: it is compared with `TREQ` (R79, R167). -/
theorem execConfigure_ends {t : Tcon} {r0 r1 : Byte} {later : List Draw} {status : Status} {s v : State}
    (htreq : s.treq = some t) (h : Completing (configureRequest t) .cfgRdWait (.ok r0 r1) later s)
    (hv : Emitted (setReply (reasm r0 r1) (completed later s)) v)
    (hend : compareReadBack (tconFromRaw (reasm r0 r1)) t
      (emit (.readResult control (.reply (reasm r0 r1))) (setReply (reasm r0 r1) (completed later s))) =
        respond status 0#16 none v) :
    ∃ es, exec (.configure t) s = .next { s with
      bus := none, answers := later, reply := some (r0 ++ r1),
      rsp := some { status := status, data := 0#16, err := none }, phase := .resp, events := s.events ++ es } := by
  rw [← reasm_eq_append]
  refine operate_responds h rfl rfl hv ?_
  rw [finishConfigureRead, completed_treq, htreq, withValue_some, hend]

/-- Settles O25: acceptance, the write's completion, the comparison in its two outcomes, and the failures. -/
theorem configureWritesAndVerifies : Obligations.ConfigureWritesAndVerifies := by
  refine fun t s => ⟨fun a idle bound => ?_, fun e later h => operate_fails h rfl rfl fun _ => rfl,
    fun a b0 b1 later ⟨_, haddr⟩ h => execConfigure_reads_back haddr h, fun r0 r1 later htreq heq h => ?_,
    fun r0 r1 later htreq hne h => ?_, fun e later h => operate_fails h rfl rfl fun _ => rfl,
    fun idle hb => operate_refused idle (by simp [hb]), fun w later idle presents hopc hz => ?_⟩
  · obtain ⟨hcmd, hlow⟩ := List.cons.inj (wframe_control_tconToRaw t)
    rw [execConfigure_issues idle bound, wframe_control_tconToRaw, hcmd, (List.cons.inj hlow).1]
  · rw [← tconFromRaw_reasm] at heq
    exact execConfigure_ends htreq h (emitted_emit _ _) (compareReadBack_of_eq heq _)
  · rw [← tconFromRaw_reasm] at hne
    exact execConfigure_ends htreq h ((emitted_emit _ _).trans (emitted_emit _ _)) (compareReadBack_of_ne hne _)
  · exact step_of_badForm idle presents (by simp only [BadForm, hopc]; tauto)

/-! ### Requests at a busy block -/

/-- An operation's course consumes no request word: only its acceptance by the step does (R160). -/
theorem SeqCase.presented_kept {s t : State} (h : SeqCase s t) : t.presented = s.presented := by
  cases h
  case configureRead result => subst result; exact compareReadBack_presented ..
  all_goals subst t; rfl

/-- The instructions whose words go to the request port are those that a request decodes to. -/
theorem decodeRequest_of_encode {i : Instr} {w : BitVec 32} (h : encode i = .req w) :
    decodeRequest (unpackRequest w) = .ok i := by
  have wf : wellFormed i = true := by
    cases i
    case cmdW | cmdInc | cmdDec | cmdRd => cases h
    all_goals rfl
  have hd := decode_encode wf
  rwa [h] at hd

/-- Settles O29: outside `IDLE` no case of a step consumes a request word, and `operate` holds a request that is not
the one in the block. -/
theorem busyBlockHoldsRequests : Obligations.BusyBlockHoldsRequests := by
  refine ⟨fun w later s t _ busy h => ?_, fun i w s hw busy hheld => ?_⟩
  · cases step_cases h
    case accepted idle _ _ => exact absurd idle busy
    case continued course => exact course.presented_kept
    all_goals subst t; rfl
  · obtain ⟨begin, continued, hresp, hexec⟩ := exec_eq_operate (decodeRequest_of_encode hw)
    exact (hexec s).trans (operate_held busy (hheld.imp_left fun hp => (congrArg continued hp).trans hresp))

end Sys2Proof.Machine
end

section
/-! Proofs, family 60_exceptions: a wait value awaits its completion (O31, O43), what a failure reports (O41, O45), and
the diagnostic events, which nothing else depends on (O46) and which each completion emits (O47). -/

namespace Sys2Proof.Machine

/-! ### A wait value awaits its completion -/

/-- A failed outcome ends the operation that this continuation continues, with the transport's error (R201, R205). -/
def EndsOnFailure (k : Draw → State → Result) : Prop := ∀ e u, ∃ event, k (.err e) u = failTransport event e u

/-- A transaction is outstanding and SEQ's step awaits its completion, with a continuation that ends the operation if
the transaction failed (R162, R201). -/
def AwaitsCompletion (s : State) : Prop :=
  ∃ k, seqStep s = awaitDraw k s ∧ s.bus.isSome = true ∧ EndsOnFailure k

/-- SEQ's step in a wait value that the operation in the block continues. -/
theorem awaitsCompletion_of_operation {r : Request} {i : Instr} {begin : State → Result}
    {continued : Phase → Option (Draw → State → Result)} {k : Draw → State → Result} {ph : Phase} {x : Txn} {s : State}
    (hp : s.phase = ph) (hw : ph.isWait = true) (hr : s.req = some r) (hd : decodeRequest r = .ok i)
    (hx : exec i s = operate r begin continued s) (hk : continued ph = some k) (hb : s.bus = some x)
    (hf : EndsOnFailure k) : AwaitsCompletion s := by
  subst hp
  have course : seqStep s = awaitDraw k s := by
    rw [seqStep_of_wait hw, resume_of_request hr hd, hx, operate, if_neg (ne_idle_of_isWait hw), hk]
    exact if_pos hr
  exact ⟨k, course, Option.isSome_of_eq_some hb, hf⟩

/-- A write in the block runs the write course, whichever of the three operations it is. -/
theorem exec_of_writeRequested {reg : RegAddr} {v : Value} {r : Request} (h : WriteRequested reg v r) :
    ∃ i, decodeRequest r = .ok i ∧ ∀ s, exec i s = operate r (beginWrite reg v) (writeContinued reg v) s := by
  rcases h with ⟨rfl, -⟩ | ⟨rfl, rfl⟩ | ⟨rfl, rfl⟩
  · exact ⟨_, decodeRequest_write reg v, fun _ => rfl⟩
  · exact ⟨_, decodeRequest_setWiper0 v, fun _ => rfl⟩
  · exact ⟨_, decodeRequest_setWiper1 v, fun _ => rfl⟩

/-- A wait value awaits a completion, whichever operation is in the block. -/
theorem PhaseInv.awaitsCompletion {s : State} (h : PhaseInv s) (hw : s.phase.isWait = true) : AwaitsCompletion s := by
  cases hp : s.phase
  case probeWait =>
    obtain ⟨-, -, -, a, hr, hb⟩ := h.clause hp
    exact awaitsCompletion_of_operation hp rfl hr (decodeRequest_probe a) rfl rfl hb fun _ _ => ⟨_, rfl⟩
  case wrWait =>
    obtain ⟨-, -, -, a, reg, v, r, -, hr, hq, -, -, hb⟩ := h.clause hp
    obtain ⟨i, hd, hx⟩ := exec_of_writeRequested hq
    exact awaitsCompletion_of_operation hp rfl hr hd (hx s) rfl hb fun _ _ => ⟨_, rfl⟩
  case rdWait =>
    obtain ⟨-, -, -, -, a, reg, -, hr, -, -, hb⟩ := h.clause hp
    exact awaitsCompletion_of_operation hp rfl hr (decodeRequest_read reg) rfl rfl hb fun _ _ => ⟨_, rfl⟩
  case cfgWrWait =>
    obtain ⟨-, -, a, t, -, hr, -, -, -, hb⟩ := h.clause hp
    exact awaitsCompletion_of_operation hp rfl hr (decodeRequest_configure t) rfl rfl hb fun _ _ => ⟨_, rfl⟩
  case cfgRdWait =>
    obtain ⟨-, -, a, t, -, hr, -, -, -, hb⟩ := h.clause hp
    exact awaitsCompletion_of_operation hp rfl hr (decodeRequest_configure t) rfl rfl hb fun _ _ => ⟨_, rfl⟩
  all_goals rw [hp] at hw; cases hw

/-- While the transport gives no outcome, a step in a wait value is the units' alone (R213). -/
theorem step_waits {s : State} (inv : Invariant s) (turn : SeqTurn s) (hw : s.phase.isWait = true)
    (ha : s.answers = []) : step s = .next (afterUnits s) := by
  obtain ⟨k, hk, -⟩ := ((invariant_afterUnits s).mpr inv).2.awaitsCompletion hw
  rw [step_of_seqTurn turn, hk]
  exact awaitDraw_waits ha

/-- Settles O31, by induction on the number of steps: each leaves SEQ as it is (`step_waits`). -/
theorem blockWaitsForEver : Obligations.BlockWaitsForEver := by
  intro n
  induction n with
  | zero => exact fun s _ _ _ _ _ => ⟨s, reaches_zero s, rfl⟩
  | succ n ih =>
    intro s inv line free hw ha
    have run : NothingStops s := ⟨line, free⟩
    have run' : NothingStops (afterUnits s) := run.tail rfl rfl
    obtain ⟨t, hreach, hsame⟩ := ih (afterUnits s) ((invariant_afterUnits s).mpr inv) run'.1 run'.2 hw ha
    exact ⟨t, reaches_succ (step_waits inv run.seqTurn hw ha) hreach, hsame⟩

/-- A failed transaction: the step that completes it emits its event and responds with the transport's error. -/
theorem step_fails {e : TErr} {later : List Draw} {s : State} (inv : Invariant s) (turn : SeqTurn s)
    (hw : s.phase.isWait = true) (ha : s.answers = .err e :: later) :
    ∃ event, step s =
      .next (raiseError .transportError (some e) (emit event (completed later (afterUnits s)))) := by
  obtain ⟨k, hk, hb, hfail⟩ := ((invariant_afterUnits s).mpr inv).2.awaitsCompletion hw
  obtain ⟨event, hevent⟩ := hfail e (completed later (afterUnits s))
  exact ⟨event, by rw [step_of_seqTurn turn, hk, awaitDraw_completes hb ha, hevent, failTransport]⟩

/-- Settles O43: the response of `step_fails`, and the frame of its updates. -/
theorem transportErrorIsVerbatim : Obligations.TransportErrorIsVerbatim := by
  intro s e later inv turn hw ha
  obtain ⟨event, h⟩ := step_fails inv turn hw ha
  exact ⟨_, h, rfl, rfl, rfl, rfl, rfl, rfl⟩

/-! ### What a failure reports -/

/-- A response is presented in `RESP` only, with nothing outstanding, and it is coherent. -/
theorem PhaseInv.response {s : State} {p : Response} (h : PhaseInv s) (hrsp : s.rsp = some p) :
    s.phase = .resp ∧ s.bus = none ∧ ∃ r, ResponseCoherent r p := by
  have presented : s.rsp ≠ none := by simp [hrsp]
  cases hp : s.phase
  case idle => obtain ⟨-, -, hn, -⟩ := h.clause hp; exact absurd hn presented
  case probeWait => obtain ⟨-, hn, -⟩ := h.clause hp; exact absurd hn presented
  case wrWait => obtain ⟨-, -, hn, -⟩ := h.clause hp; exact absurd hn presented
  case rdWait => obtain ⟨-, -, -, hn, -⟩ := h.clause hp; exact absurd hn presented
  case cfgWrWait => obtain ⟨-, hn, -⟩ := h.clause hp; exact absurd hn presented
  case cfgRdWait => obtain ⟨-, hn, -⟩ := h.clause hp; exact absurd hn presented
  case resp =>
    obtain ⟨hb, r, q, -, hq, hc⟩ := h.clause hp
    obtain rfl : q = p := Option.some.inj (hq.symm.trans hrsp)
    exact ⟨rfl, hb, r, hc⟩

/-- Settles O41: the step keeps the invariant, under which a response is coherent and presented in `RESP`. -/
theorem failureReportsNothingElse : Obligations.FailureReportsNothingElse := by
  intro s t p inv h hrsp hstatus
  obtain ⟨hp, hb, r, herr, hdata, -⟩ := (invariantKeptByEveryStep s t inv h).2.response hrsp
  have noData : p.data = 0#16 := by
    by_contra hne
    exact hstatus (hdata hne).1
  exact ⟨noData, herr, hp, hb⟩

/-- No two statuses share a code (R86). -/
theorem statusCode_inj {x y : Status} : statusCode x = statusCode y ↔ x = y := by
  obtain ⟨-, -, -, -, -, -, -, -, injective⟩ := statusCodesAreAsListed
  exact ⟨injective x y, congrArg statusCode⟩

/-- Settles O45: each predicate compares the code with that of one status. -/
theorem errorPredicatesReadTheStatus : Obligations.ErrorPredicatesReadTheStatus :=
  fun _ => ⟨beq_iff_eq.trans (statusCode_inj (y := .transportError)),
    beq_iff_eq.trans (statusCode_inj (y := .configMismatch))⟩

/-! ### Forgetting the diagnostics -/

theorem withoutDiagnostics_seqSymmetry : SeqSymmetry id State.withoutDiagnostics := by
  constructor
  case answers_eq => intro s; simp [State.withoutDiagnostics]
  case map_completed => intro later s; simp [State.withoutDiagnostics, completed]
  case map_respond => intro status data err s; simp [State.withoutDiagnostics, respond]
  all_goals intros; rfl

theorem step_withoutDiagnostics (s : State) :
    step s.withoutDiagnostics = mapNext State.withoutDiagnostics (step s) := by
  rcases tcuPortOk_or s with h | ⟨c, later, hc, hr⟩
  · rw [step_eq h, withoutDiagnostics_seqSymmetry.equivariant_seqOrReset]
    exact step_eq h
  · rw [step_refused hc hr]
    exact step_refused hc hr

/-- Settles O46: a step commutes with forgetting the diagnostics, so the two outcomes, forgotten, are equal. -/
theorem diagnosticsDoNotInterfere : Obligations.DiagnosticsDoNotInterfere := by
  intro s t h
  have same : mapNext State.withoutDiagnostics (step s) = mapNext State.withoutDiagnostics (step t) := by
    rw [← step_withoutDiagnostics, h, step_withoutDiagnostics]
  revert same
  cases step s <;> cases step t <;> simp [mapNext]

/-! ### The events of a completion -/

/-- The outcome is a state, and on the way there from `s` exactly the events `es` are emitted, if a sink is attached. -/
def Emits (es : List DiagEvent) (s : State) (x : Result) : Prop := ∃ t, x = .next t ∧ t.events = eventsWith es s

/-- A completion emits what the continuation it runs does. -/
theorem operate_emits {r : Request} {begin : State → Result} {continued : Phase → Option (Draw → State → Result)}
    {k : Draw → State → Result} {ph : Phase} {d : Draw} {later : List Draw} {s : State} {es : List DiagEvent}
    (h : Completing r ph d later s) (hp : ph.isWait = true) (hk : continued ph = some k)
    (he : Emits es (completed later s) (k d (completed later s))) : Emits es s (operate r begin continued s) := by
  rw [operate_completing hk (ne_idle_of_isWait hp) h]
  exact he

theorem finishProbe_emits (a : BusAddr) (d : Draw) (s : State) :
    Emits [.probeResult a d.failure] s (finishProbe a d s) := by
  cases d <;> exact ⟨_, rfl, rfl⟩

theorem finishWrite_emits (reg : RegAddr) (v : Value) (d : Draw) (s : State) :
    Emits [.writeResult reg v d.failure] s (finishWrite reg v d s) := by
  cases d <;> exact ⟨_, rfl, rfl⟩

theorem finishRead_emits (reg : RegAddr) (d : Draw) (s : State) :
    Emits [.readResult reg d.report] s (finishRead reg d s) := by
  cases d with
  | ok r0 r1 => rw [Draw.report, ← reasm_eq_append]; exact ⟨_, rfl, rfl⟩
  | err e => exact ⟨_, rfl, rfl⟩

theorem finishConfigureWrite_emits {a : BusAddr} (t : Tcon) (d : Draw) {s : State} (haddr : s.busaddr = some a) :
    Emits [.writeResult 0x4#4 (0#7 ++ t) d.failure] s (finishConfigureWrite t d s) := by
  rw [← tconToRaw_eq_append]
  cases d with
  | ok b0 b1 => exact ⟨_, issueRead_eq haddr rfl, rfl⟩
  | err e => exact ⟨_, rfl, rfl⟩

/-- Events after one that has been emitted. -/
theorem eventsWith_emit (e : DiagEvent) (es : List DiagEvent) (s : State) :
    eventsWith es (emit e s) = eventsWith (e :: es) s := by
  cases h : s.diagPresent <;> simp [eventsWith, h]

/-- The events of CONFIGURE's read: its result, and a mismatch where the comparison fails (R215). -/
def readBackEvents (want : Tcon) : Draw → List DiagEvent
  | .err e => [.readResult 0x4#4 (.error e)]
  | .ok r0 r1 =>
    if (r0 ++ r1).extractLsb' 0 9 = want then [.readResult 0x4#4 (.reply (r0 ++ r1))]
    else [.readResult 0x4#4 (.reply (r0 ++ r1)), .mismatch want ((r0 ++ r1).extractLsb' 0 9)]

theorem finishConfigureRead_emits {t : Tcon} (d : Draw) {s : State} (htreq : s.treq = some t) :
    Emits (readBackEvents t d) s (finishConfigureRead d s) := by
  cases d with
  | ok r0 r1 =>
    rw [finishConfigureRead, htreq, withValue_some, readBackEvents, ← tconFromRaw_reasm, ← reasm_eq_append]
    refine ⟨_, rfl, ?_⟩
    split
    · next heq => rw [compareReadBack_of_eq heq]; rfl
    · next hne => rw [compareReadBack_of_ne hne, ← eventsWith_emit]; rfl
  | err e => exact ⟨_, rfl, rfl⟩

/-- Settles O47: each completion runs one continuation, whose events are in the lemmas above. -/
theorem completionsEmitTheirEvents : Obligations.CompletionsEmitTheirEvents := by
  refine ⟨fun a d _ _ h => operate_emits h rfl rfl (finishProbe_emits a d _),
    fun reg v d _ _ h => operate_emits h rfl rfl (finishWrite_emits reg v d _),
    fun v d _ _ h => operate_emits h rfl rfl (finishWrite_emits wiper0 v d _),
    fun v d _ _ h => operate_emits h rfl rfl (finishWrite_emits wiper1 v d _),
    fun reg d _ _ h => operate_emits h rfl rfl (finishRead_emits reg d _),
    fun c _ d _ _ ⟨_, haddr⟩ h => operate_emits h rfl rfl (finishConfigureWrite_emits c d haddr),
    fun c d later s htreq h => ?_⟩
  have emits : Emits (readBackEvents c d) s (execConfigure c s) :=
    operate_emits h rfl rfl (finishConfigureRead_emits d htreq)
  cases d <;> exact emits

end Sys2Proof.Machine
end

section
/-! Proofs, family 70_reset_and_hazards: the registers after reset (O49), and a reset in the middle of an operation
(O50). -/

namespace Sys2Proof.Machine

/-- Settles O49: the reset state gives each register the value the statement names. -/
theorem resetStateIsAsStated : Obligations.ResetStateIsAsStated :=
  ⟨rfl, rfl, rfl, rfl, rfl, rfl, rfl, rfl, rfl⟩

/-- A reset of the block gives its registers the values they have after reset, whatever they held (R230). -/
theorem resetBlock_sameRegisters (s : State) : SameRegisters State.reset (resetBlock s) :=
  ⟨rfl, rfl, rfl, rfl, rfl, rfl, rfl, rfl, rfl⟩

/-- Settles O50: a step with the reset line high is the reset of the block, once the units have answered; neither part
touches the traces or SEQ's other inputs. -/
theorem resetAbandonsTheOperation : Obligations.ResetAbandonsTheOperation := fun s line port =>
  ⟨resetBlock (afterUnits s), step_reset line port, resetBlock_sameRegisters _, resetBlock_bus _,
    resetBlock_resetLine _, resetBlock_issued _, resetBlock_events _, resetBlock_presented _, resetBlock_answers _,
    resetBlock_takes _⟩

end Sys2Proof.Machine
end
